-- ==== Sys2Proof/Word.lean ====
section
/-!
DEFINITION. The words of the J9: bytes, 32-bit and 64-bit words, and the plainest arithmetic on them.
Registers are little-endian and 32 or 64 bits wide (R7); counters in this model are naturals, reduced where
the spec says that they wrap.
-/

namespace Sys2Proof

/-- One byte. -/
abbrev Byte := BitVec 8

/-- A 32-bit register or element. -/
abbrev Word := BitVec 32

/-- A 64-bit register, descriptor, address or instruction word. -/
abbrev DWord := BitVec 64

/-- 2^32: the 32-bit counters of the device wrap here. -/
abbrev two32 : Nat := 4294967296

/-- 2^64: the 64-bit counters of the device wrap here. -/
abbrev two64 : Nat := 18446744073709551616

/-- A counter's next value, holding at its maximum (R26, R235 and their relatives: "holds at"). -/
def satAdd (max a b : Nat) : Nat := if a + b ≤ max then a + b else max

/-- A counter's next value, wrapping at `m`. -/
def wrapAdd (m a b : Nat) : Nat := (a + b) % m

/-- (a − b) mod m, the distance of two free-running counters (R284). -/
def modSub (m a b : Nat) : Nat := (a % m + (m - b % m)) % m

end Sys2Proof
end

