-- ==== Sys2Proof/Syntax.lean ====
section
/-!
DEFINITION. The commands of the J9: one constructor per row of spec/opcode_table.json, with the operands the row's
rule gives the step. A gang's instruction carries the gang's number (R11), the 64-bit instruction word and the extension
word (R98); the constructor fixes OPCODE (log entry 3). A register access carries the requesting function q
(port × 16 + function, R399; 32 is JTAG, 33 the Pithead). A ring command carries its partition, its level and the
bytes of its slots (R291). What the device measures or receives from outside is an operand too.
-/

namespace Sys2Proof

/-- A disturbed symbol that one read of a channel meets (R211): line (device physical address / 128), codeword of the
line, symbol, and the error nibble. -/
structure Flip where
  line : Nat
  cw : Nat
  sym : Nat
  err : Nat
  deriving DecidableEq, Repr

/-- Who polls a semaphore word (R120): a gang, or a started command of a partition. -/
inductive Poller where
  | gang (g : Nat)
  | cmd (p k : Nat)
  deriving DecidableEq, Repr

/-- The commit groups of R59. -/
inductive GroupId where
  | ring (p n : Nat)
  | sump (p : Nat)
  | fault (p : Nat)
  | energy (p : Nat)
  | seam (p i : Nat)
  | adit (p a : Nat)
  | cadence
  deriving DecidableEq, Repr

/-- An adit request as it arrives (R368), with its source device (R346). -/
structure AditReq where
  src : Nat
  window : Nat
  offset : Nat
  tag : Nat
  len : Nat
  aop : Nat
  pmask : Nat
  data : List Byte
  deriving DecidableEq, Repr

/-- An adit response (R368). -/
structure AditRsp where
  tag : Nat
  status : Nat
  len : Nat
  pmask : Nat
  data : List Byte
  deriving DecidableEq, Repr

/-- What a coherent agent asks a line's home for (R260); `own` carries the bytes that the agent, once it owns the line, holds in it. -/
inductive AgentReq where
  | read
  | own (data : List Byte)
  | writeback (data : List Byte)
  | evict
  deriving DecidableEq, Repr

/-- A TIME message (R328). -/
structure TimeMsg where
  tTx : Nat
  echoTx : Nat
  echoRx : Nat
  root : Nat
  cls : Nat
  hops : Nat
  serve : Bool
  deriving DecidableEq, Repr

/-- A HELLO (R351); `echo` is T_ECHO, `tTx` T_TX, `at` the sender's cycle count is not needed. -/
structure HelloMsg where
  serial : Nat
  id : Nat
  valid : Bool
  port : Nat
  version : Nat
  width : Nat
  leadOffer : Bool
  leader : Bool
  tTx : Nat
  echo : Nat
  deriving DecidableEq, Repr

/-- An LSA (R353): each entry is own port, neighbour's port, neighbour's ID (none while it has no valid one) and the
neighbour's serial as the receiver resolves it. -/
structure LsaEntry where
  own : Nat
  nbrPort : Nat
  nbrId : Option Nat
  deriving DecidableEq, Repr

structure LsaMsg where
  serial : Nat
  id : Option Nat
  leadOffer : Bool
  sq : Nat
  ports : List LsaEntry
  deriving DecidableEq, Repr

/-- An ASSIGN_REQ (R356). -/
structure AssignReqMsg where
  serial : Nat
  sq : Nat
  deriving DecidableEq, Repr

/-- An ASSIGN (R356). -/
structure AssignMsg where
  leader : Nat
  target : Nat
  id : Nat
  sq : Nat
  deriving DecidableEq, Repr

/-- A flit's routing header (R346) and payload. -/
structure Flit where
  type : Nat
  hops : Nat
  dest : Nat
  src : Nat
  flow : Nat
  body : List Byte
  deriving DecidableEq, Repr

/-- A CV_DATA (R370), with its source device. -/
structure CvDataMsg where
  src : Nat
  conveyor : Nat
  producer : Nat
  width : Nat
  sq : Nat
  entries : List (BitVec 128)
  deriving DecidableEq, Repr

/-- A CV_CREDIT (R370), with its source device. -/
structure CvCreditMsg where
  src : Nat
  producer : Nat
  consumer : Nat
  close : Bool
  received : Nat
  freed : Nat
  deriving DecidableEq, Repr

/-- A reduction flit (R381): the header's fields and DATA. -/
structure RedMsg where
  job : Nat
  rank : Nat
  stp : Nat
  period : Nat
  chunk : Nat
  poison : Bool
  data : List Word
  deriving DecidableEq, Repr

/-- A request for BAR2 on a port (R399, R408): requester ID, function, offset, relaxed ordering. -/
structure HostReq where
  port : Nat
  rid : Nat
  fn : Nat
  off : Nat
  relaxed : Bool
  deriving DecidableEq, Repr

/-- A configuration request (R395 to R398, R412): reads of the identity fields, and the writes the spec gives an effect. -/
inductive CfgReq where
  | readVendor
  | readDevice
  | readRevision
  | readClass
  | readSubsystem
  | readSerial
  | readBar2Log
  | readVf
  | memEnable (on : Bool)
  | vfEnable (on : Bool)
  | maxPayload (b : Nat)
  | maxRead (b : Nat)
  | power (d3 : Bool)
  | resizeBar2 (log2 : Nat)
  | msix (enable mask : Bool)
  deriving DecidableEq, Repr

/-- An unlock block (R431): the challenge it answers, the partition mask, the CREW bit, the key that signed it (none for
the vendor's) and the signature. -/
structure UnlockBlk where
  challenge : List Byte
  mask : Nat
  crew : Bool
  key : Option Nat
  vendorPub : List Byte
  sig : List Byte
  deriving DecidableEq, Repr

/-- The resources of R416 that a Crew access may name. -/
inductive CrewRes where
  | bootRom | deputySram | keys | flash | crewImage | crewWork | rst | srv | ckwRaw | ckwCounters | dpt
  | front | readOnly | fltRecords | reserved | pool | pitLog
  deriving DecidableEq, Repr

/-- A placement decision that Crew proposes (R270, R272, R273), with what it would use. -/
inductive Proposal where
  | reseam (p t : Nat) (channels : List Nat) (stride : Nat)
  | addReplica (p t : Nat) (channels : List Nat) (stride : Nat) (scratch : Bool)
  | dropReplica (p t i : Nat)
  | district (p stg : Nat) (cores : List Nat)
  deriving DecidableEq, Repr

/-- What the converters give for a window (R436, R439, R440): per pool the measured energy in pJ, the mean rail voltages
and the mean junction temperature. -/
structure Sample where
  pj : List Nat
  volts : List Nat
  temp : List Nat
  deriving DecidableEq, Repr

/-- What the boot meets outside the machine at a release (R459 to R471): the strap's converter code, and whether the
images in flash pass their checks when they are read. -/
structure BootIn where
  code : Nat
  depOk : Bool
  otherOk : Bool
  crewOk : Bool
  calOk : Bool
  deriving DecidableEq, Repr

/-- What pacing sees (R509, R510, R513): mean package power over 100 µs and over 10 ms in mW, the hottest sensor of each
tier, the hottest stack, and the regulators' current in A. -/
structure PaceIn where
  mw100 : Nat
  mw10ms : Nat
  tiers : List Nat
  stack : Nat
  amps : Nat
  deriving DecidableEq, Repr

/-- The commands: one constructor per row of spec/opcode_table.json. -/
inductive Instr where

  /-- IADD (R518): Integer add of A and B, modulo the width. -/
  | iadd (g : Nat) (w x : DWord)
  /-- ISUB (R518): Integer subtract of B from A, modulo the width. -/
  | isub (g : Nat) (w x : DWord)
  /-- IMUL (R518): Low half of the integer product of A and B. -/
  | imul (g : Nat) (w x : DWord)
  /-- IMULHI_U (R518): High half of the unsigned product of A and B. -/
  | imulhiU (g : Nat) (w x : DWord)
  /-- IMULHI_S (R518): High half of the signed product of A and B. -/
  | imulhiS (g : Nat) (w x : DWord)
  /-- IMAD (R518): Low half of A times B plus C. -/
  | imad (g : Nat) (w x : DWord)
  /-- IDIV_U (R518): Unsigned quotient, with the divide-by-zero results of R109. -/
  | idivU (g : Nat) (w x : DWord)
  /-- IDIV_S (R518): Signed quotient rounded toward zero, with the edge cases of R109. -/
  | idivS (g : Nat) (w x : DWord)
  /-- IREM_U (R518): Unsigned remainder, with the edge cases of R109. -/
  | iremU (g : Nat) (w x : DWord)
  /-- IREM_S (R518): Signed remainder with the sign of A, with the edge cases of R109. -/
  | iremS (g : Nat) (w x : DWord)
  /-- IMIN_U (R518): Unsigned minimum of A and B. -/
  | iminU (g : Nat) (w x : DWord)
  /-- IMIN_S (R518): Signed minimum of A and B. -/
  | iminS (g : Nat) (w x : DWord)
  /-- IMAX_U (R518): Unsigned maximum of A and B. -/
  | imaxU (g : Nat) (w x : DWord)
  /-- IMAX_S (R518): Signed maximum of A and B. -/
  | imaxS (g : Nat) (w x : DWord)
  /-- IABS (R518): Absolute value of A; the most negative value gives itself. -/
  | iabs (g : Nat) (w x : DWord)
  /-- INEG (R518): Negation of A, modulo the width. -/
  | ineg (g : Nat) (w x : DWord)
  /-- AND (R518): Bitwise AND of A and B. -/
  | and (g : Nat) (w x : DWord)
  /-- OR (R518): Bitwise OR of A and B. -/
  | or (g : Nat) (w x : DWord)
  /-- XOR (R518): Bitwise XOR of A and B. -/
  | xor (g : Nat) (w x : DWord)
  /-- NOT (R518): Every bit of A inverted. -/
  | not (g : Nat) (w x : DWord)
  /-- SHL (R518): Left shift of A by the count, with zero at counts of the width or more. -/
  | shl (g : Nat) (w x : DWord)
  /-- SHR (R518): Logical right shift of A, with zero fill. -/
  | shr (g : Nat) (w x : DWord)
  /-- SAR (R518): Arithmetic right shift of A, with sign fill. -/
  | sar (g : Nat) (w x : DWord)
  /-- POPC (R518): Count of the set bits of A, as a 32-bit result. -/
  | popc (g : Nat) (w x : DWord)
  /-- CLZ (R518): Count of the leading zero bits of A, as a 32-bit result. -/
  | clz (g : Nat) (w x : DWord)
  /-- BREV (R518): Bits of A in reverse order. -/
  | brev (g : Nat) (w x : DWord)
  /-- MOV (R518): Copies A to the destination. -/
  | mov (g : Nat) (w x : DWord)
  /-- SHFL (R518): Reads the value of vector A held by lane B, whatever that lane's state. -/
  | shfl (g : Nat) (w x : DWord)
  /-- LANEID (R518): Writes the lane number to the destination. -/
  | laneid (g : Nat) (w x : DWord)
  /-- MDESC_SET (R518): Sets a matrix descriptor register from the lowest-numbered active lane's value. -/
  | mdescSet (g : Nat) (w x : DWord)
  /-- MDESC_GET (R518): Copies a matrix descriptor into a register pair. -/
  | mdescGet (g : Nat) (w x : DWord)
  /-- PRD (R518): Reads the 32 bits of a predicate register. -/
  | prd (g : Nat) (w x : DWord)
  /-- PWR (R518): Each active lane writes bit n of its value of A into its own predicate bit. -/
  | pwr (g : Nat) (w x : DWord)
  /-- ICMP_EQ (R518): Writes the predicate bit of each active lane for A equal to B. -/
  | icmpEq (g : Nat) (w x : DWord)
  /-- ICMP_NE (R518): Writes the predicate bit of each active lane for A not equal to B. -/
  | icmpNe (g : Nat) (w x : DWord)
  /-- ICMP_LT_U (R518): Writes the predicate bit of each active lane for A below B, unsigned. -/
  | icmpLtU (g : Nat) (w x : DWord)
  /-- ICMP_GE_U (R518): Writes the predicate bit of each active lane for A at or above B, unsigned. -/
  | icmpGeU (g : Nat) (w x : DWord)
  /-- ICMP_LT_S (R518): Writes the predicate bit of each active lane for A below B, signed. -/
  | icmpLtS (g : Nat) (w x : DWord)
  /-- ICMP_GE_S (R518): Writes the predicate bit of each active lane for A at or above B, signed. -/
  | icmpGeS (g : Nat) (w x : DWord)
  /-- FADD (R519): FP32 addition, rounded once under RM. -/
  | fadd (g : Nat) (w x : DWord)
  /-- FSUB (R519): FP32 subtraction, rounded once under RM. -/
  | fsub (g : Nat) (w x : DWord)
  /-- FMUL (R519): FP32 multiplication, rounded once under RM. -/
  | fmul (g : Nat) (w x : DWord)
  /-- FFMA (R519): FP32 fused multiply-add, rounded once. -/
  | ffma (g : Nat) (w x : DWord)
  /-- FDIV (R519): FP32 division, rounded once under RM. -/
  | fdiv (g : Nat) (w x : DWord)
  /-- FSQRT (R519): FP32 square root, rounded once under RM. -/
  | fsqrt (g : Nat) (w x : DWord)
  /-- FMIN (R519): FP32 minimum under the NaN and signed-zero rules of R163. -/
  | fmin (g : Nat) (w x : DWord)
  /-- FMAX (R519): FP32 maximum under the NaN and signed-zero rules of R163. -/
  | fmax (g : Nat) (w x : DWord)
  /-- FABS (R519): Clears the sign of A; a NaN gives the canonical NaN. -/
  | fabs (g : Nat) (w x : DWord)
  /-- FNEG (R519): Inverts the sign of A; a NaN gives the canonical NaN. -/
  | fneg (g : Nat) (w x : DWord)
  /-- FRCP_APPROX (R519): Approximate reciprocal, within 1 ulp. -/
  | frcpApprox (g : Nat) (w x : DWord)
  /-- FRSQ_APPROX (R519): Approximate reciprocal square root, within 2 ulp. -/
  | frsqApprox (g : Nat) (w x : DWord)
  /-- FEX2_APPROX (R519): Approximate 2 to the power A. -/
  | fex2Approx (g : Nat) (w x : DWord)
  /-- FLG2_APPROX (R519): Approximate base-2 logarithm of A. -/
  | flg2Approx (g : Nat) (w x : DWord)
  /-- FSIN_APPROX (R519): Approximate sine of A in radians. -/
  | fsinApprox (g : Nat) (w x : DWord)
  /-- FCOS_APPROX (R519): Approximate cosine of A in radians. -/
  | fcosApprox (g : Nat) (w x : DWord)
  /-- FTANH_APPROX (R519): Approximate hyperbolic tangent of A. -/
  | ftanhApprox (g : Nat) (w x : DWord)
  /-- FCMP_EQ (R519): Writes the predicate bit of each active lane for FP32 equality. -/
  | fcmpEq (g : Nat) (w x : DWord)
  /-- FCMP_NE (R519): Writes the predicate bit of each active lane for FP32 inequality, true with a NaN. -/
  | fcmpNe (g : Nat) (w x : DWord)
  /-- FCMP_LT (R519): Writes the predicate bit of each active lane for FP32 less than. -/
  | fcmpLt (g : Nat) (w x : DWord)
  /-- FCMP_LE (R519): Writes the predicate bit of each active lane for FP32 less or equal. -/
  | fcmpLe (g : Nat) (w x : DWord)
  /-- FCMP_GT (R519): Writes the predicate bit of each active lane for FP32 greater than. -/
  | fcmpGt (g : Nat) (w x : DWord)
  /-- FCMP_GE (R519): Writes the predicate bit of each active lane for FP32 greater or equal. -/
  | fcmpGe (g : Nat) (w x : DWord)
  /-- FCMP_UNORD (R519): Writes the predicate bit of each active lane when either operand is a NaN. -/
  | fcmpUnord (g : Nat) (w x : DWord)
  /-- FCMP_ORD (R519): Writes the predicate bit of each active lane when neither operand is a NaN. -/
  | fcmpOrd (g : Nat) (w x : DWord)
  /-- CVT_TO (R520): Converts FP32 to the format that TYPE names under RM, advancing the stochastic generator under RM 2. -/
  | cvtTo (g : Nat) (w x : DWord)
  /-- CVT_FROM (R520): Converts a value of the format that TYPE names to FP32. -/
  | cvtFrom (g : Nat) (w x : DWord)
  /-- BRA (R110): Jumps in each active lane by a displacement. -/
  | bra (g : Nat) (w x : DWord)
  /-- BRX (R110): Jumps in each active lane to that lane's own 64-bit target. -/
  | brx (g : Nat) (w x : DWord)
  /-- CALL (R110): Pushes the return address onto the lane's return stack and jumps by a displacement. -/
  | call (g : Nat) (w x : DWord)
  /-- CALLX (R110): Pushes the return address onto the lane's return stack and jumps to a register target. -/
  | callx (g : Nat) (w x : DWord)
  /-- RET (R110): Pops the lane's return stack and jumps there. -/
  | ret (g : Nat) (w x : DWord)
  /-- EXIT (R110): Makes the active lanes exit, which may complete barriers. -/
  | exit (g : Nat) (w x : DWord)
  /-- YIELD (R110): Forms a switch point and has no other effect. -/
  | yield (g : Nat) (w x : DWord)
  /-- TRAP (R110): Raises the SOFTWARE trap with DISP as its immediate. -/
  | trap (g : Nat) (w x : DWord)
  /-- BRK (R110): Raises the BREAKPOINT trap with DISP as its immediate. -/
  | brk (g : Nat) (w x : DWord)
  /-- LD (R112): Loads SIZE bytes per active lane from the named space, marking the destination poisoned when the line is poisoned. -/
  | ld (g : Nat) (w x : DWord) (flips : List Flip)
  /-- ST (R113): Enters one store-buffer entry per active lane for the named space. -/
  | st (g : Nat) (w x : DWord)
  /-- ATOM (R115): Performs an indivisible read, combine and write of an element and returns the old value. -/
  | atom (g : Nat) (w x : DWord)
  /-- LD_ACQUIRE (R119): Loads, then acquires; later memory instructions of the thread wait for the data. -/
  | ldAcquire (g : Nat) (w x : DWord)
  /-- ST_RELEASE (R119): Waits for the thread's earlier stores to be visible, then stores. -/
  | stRelease (g : Nat) (w x : DWord)
  /-- SEM_ACQUIRE (R120): Waits until the semaphore word reaches the lane's value, then acquires. -/
  | semAcquire (g : Nat) (w x : DWord)
  /-- SEM_RELEASE (R120): Releases, then raises the semaphore word to the larger value at its home. -/
  | semRelease (g : Nat) (w x : DWord)
  /-- FENCE (R121): Orders the thread's later memory instructions after its earlier loads, stores or both. -/
  | fence (g : Nat) (w x : DWord)
  /-- BAR_GANG (R69): The thread arrives at the gang barrier and waits for the rest of its gang. -/
  | barGang (g : Nat) (w x : DWord)
  /-- BAR_NAMED (R70): The gang arrives at a named barrier instance of its core with a count of gangs. -/
  | barNamed (g : Nat) (w x : DWord)
  /-- CV_PUSH (R125): Appends one entry per active lane to a conveyor, waiting for room. -/
  | cvPush (g : Nat) (w x : DWord)
  /-- CV_POP (R126): Takes one entry per active lane from a conveyor, waiting for entries or a close. -/
  | cvPop (g : Nat) (w x : DWord)
  /-- CV_PUSH_TRY (R125): Appends all entries or none without waiting and sets a predicate. -/
  | cvPushTry (g : Nat) (w x : DWord)
  /-- CV_POP_TRY (R126): Takes entries for all active lanes or none without waiting and sets a predicate. -/
  | cvPopTry (g : Nat) (w x : DWord)
  /-- MFRAG_LOAD (R132): Loads a matrix fragment from workspace into the gang's registers. -/
  | mfragLoad (g : Nat) (w x : DWord)
  /-- MFRAG_STORE (R132): Stores a matrix fragment from the gang's registers to workspace. -/
  | mfragStore (g : Nat) (w x : DWord)
  /-- MMA_STAT (R133): Copies a stationary tile into the shadows, or an accumulator fragment into the accumulators. -/
  | mmaStat (g : Nat) (w x : DWord)
  /-- MMA_RUN (R134): Queues a run that streams K weight vectors through an array or quarter. -/
  | mmaRun (g : Nat) (w x : DWord)
  /-- MMA_DRAIN (R135): Waits for earlier runs and copies the accumulators into registers. -/
  | mmaDrain (g : Nat) (w x : DWord)
  /-- TIME_RD (R128): Reads Record Time, its fraction or the core's cycle count. -/
  | timeRd (g : Nat) (w x : DWord)
  /-- GST_RD (R122): Reads the gang status word. -/
  | gstRd (g : Nat) (w x : DWord)
  /-- GST_CLR (R122): Clears STORE_ERR in the gang status word. -/
  | gstClr (g : Nat) (w x : DWord)
  /-- LOAD_RETURN (R182): Load data returns to the requester and is delivered in the thread's issue order. -/
  | loadReturn (g i : Nat)
  /-- STORE_DRAIN (R180): A store-buffer entry reaches its point of coherence, which may complete fences, releases and slot frees. -/
  | storeDrain (b i : Nat)
  /-- LOAD_TIMEOUT (R194): A host load waits 4 ms or an adit load 1 ms without response and completes as failed with poisoned registers. -/
  | loadTimeout (g i : Nat)
  /-- ADIT_STORE_TIMEOUT (R193): An adit store draws no acknowledgement in 1 ms, so its destination is dead and the store lost. -/
  | aditStoreTimeout (b i : Nat)
  /-- SEMAPHORE_POLL (R120): A waiting semaphore word is checked again at least every 2 µs. -/
  | semaphorePoll (k : Poller)
  /-- BARRIER_DEADLOCK (R72): The scheduler finds a split gang or a barrier that can never complete and traps the gangs. -/
  | barrierDeadlock (core : Nat)
  /-- KERNEL_TRAP (R83): After the gang's stores drain, a trap is reported with a record and the ring is reset guilty, or the gang halts under trap stop. -/
  | kernelTrap (g : Nat)
  /-- GANG_START (R296): The dispatch stage places a launch's next gang into a free slot with room in the register file. -/
  | gangStart (p k g : Nat)
  /-- MMA_RUN_COMPLETE (R152): A run's last result lands in its slot, freeing a queue place and letting a waiting drain copy. -/
  | mmaRunComplete (core u : Nat)
  /-- HALT (R91): The debugger stops the selected gang issuing. -/
  | halt (q : Nat)
  /-- HALT_COMPLETE (R91): Every instruction of a halting gang completes and its state becomes HALTED. -/
  | haltComplete (g : Nat)
  /-- RESUME (R94): The debugger returns a halted gang to scheduling with ages reset. -/
  | resume (q : Nat)
  /-- STEP_GANG (R92): A halted gang issues one instruction from the path the scheduler would choose. -/
  | stepGang (q : Nat) (w x : DWord)
  /-- STEP_PATH (R92): A halted gang issues one instruction for the path holding lane LANE. -/
  | stepPath (q lane : Nat) (w x : DWord)
  /-- STEP_COMPLETE (R92): A stepped instruction completes and the gang returns to HALTED. -/
  | stepComplete (g : Nat)
  /-- REG_READ (R90): Reads the selected register of a halted gang into DBG_REG_DATA. -/
  | regRead (q : Nat)
  /-- REG_WRITE (R90): Writes DBG_REG_DATA into the selected register of a halted gang. -/
  | regWrite (q : Nat)
  /-- FAULT (R94): Sends a gang halted on a trap down the course of R83. -/
  | fault (q : Nat)
  /-- DBG_LANE_PC_WRITE (R93): Sets the program counter of a lane of a halted gang. -/
  | dbgLanePcWrite (q lane : Nat) (v : DWord)
  /-- REGISTER_WRITE (R6): A write to a register with no row of its own, under the access types, foreign-write discard and width rules. -/
  | registerWrite (q off size : Nat) (v : DWord)
  /-- READ_CLEAR (R6): A read of an RC register returns and clears its value. -/
  | readClear (q off size : Nat)
  /-- HALF_READ_LATCH (R7): A low-half read of a 64-bit register latches the high half for the function. -/
  | halfReadLatch (q off : Nat)
  /-- DEV_PART_SEL (R21): A function selects which bound partition its per-partition views show. -/
  | devPartSel (q v : Nat)
  /-- VALIDATE (R41): The Deputy fetches and validates a Survey image without applying it. -/
  | validate (q : Nat)
  /-- APPLY (R52): The Deputy validates an image, drains changed partitions, applies it in a shot window and stores it. -/
  | apply (q : Nat)
  /-- STORE (R47): The Deputy validates an image and stores it for the next boot. -/
  | store (q : Nat)
  /-- ABORT (R46): Ends a Survey operation in states 1 to 4 with ABORTED and lifts any drain. -/
  | abort (q : Nat)
  /-- SURVEY_VALIDATION_END (R42): Validation of a fetched image ends with OK or a failure code. -/
  | surveyValidationEnd (img : Option (List Byte))
  /-- SURVEY_DRAIN_END (R52): All draining partitions are idle; pools are checked and the operation waits for a window. -/
  | surveyDrainEnd
  /-- SURVEY_APPLY_END (R52): The apply ends, changed partitions resume and storing begins. -/
  | surveyApplyEnd
  /-- SURVEY_STORE_END (R47): The image is programmed into flash and the Survey interrupt raised. -/
  | surveyStoreEnd
  /-- CMD_RING_COMMIT (R59): Checks the ring shadows and backing pages, and sets a pending swap or refuses. -/
  | cmdRingCommit (q n : Nat)
  /-- CMD_SUMP_COMMIT (R59): Checks the sump shadows and sets a pending swap or refuses. -/
  | cmdSumpCommit (q : Nat)
  /-- FLT_RING_COMMIT (R476): Checks the fault-ring shadows and sets a pending swap or refuses. -/
  | fltRingCommit (q : Nat)
  /-- CKW_ERING_COMMIT (R451): Checks the energy-ring shadows and sets a pending swap or refuses. -/
  | ckwEringCommit (q : Nat)
  /-- PLC_SEAM_COMMIT (R280): Reads a pinned seam's channel mask, checks it and sets a pending swap or refuses. -/
  | plcSeamCommit (q i : Nat)
  /-- XLT_ADIT_COMMIT (R255): Checks an adit window's shadows against the Survey and sets a pending swap or refuses. -/
  | xltAditCommit (q a : Nat)
  /-- TIM_CAD_COMMIT (R336): Checks the cadence shadows and sets a pending swap at the period end, or refuses. -/
  | timCadCommit (q : Nat)
  /-- COMMIT_SWAP (R55): At its group's boundary the pending set becomes live in one step. -/
  | commitSwap (k : GroupId)
  /-- CMD_DOORBELL (R285): Advances a ring's TAIL when the value is valid, otherwise counts a bad doorbell. -/
  | cmdDoorbell (q p n v : Nat)
  /-- RING_ENABLE (R288): Sets or clears a ring's ENABLE, starting or stopping fetches. -/
  | ringEnable (q n : Nat) (on : Bool)
  /-- GUILTY (R316): The driver marks a ring guilty, which resets it. -/
  | guilty (q n : Nat)
  /-- RING_RESUME (R317): Restarts fetching of a guilty ring at HEAD. -/
  | ringResume (q n : Nat)
  /-- CMD_SUMP_HEAD (R311): The driver frees sump entries, letting a waiting COMPLETE write its record. -/
  | cmdSumpHead (q v : Nat)
  /-- FLT_RING_HEAD (R481): The driver frees fault-ring records and held records are written again. -/
  | fltRingHead (q v : Nat)
  /-- FLT_DRING_HEAD (R477): The driver frees device fault-ring records. -/
  | fltDringHead (q v : Nat)
  /-- CKW_ERING_HEAD (R452): The driver frees energy-ring records and held records go out. -/
  | ckwEringHead (q v : Nat)
  /-- TIM_SET (R330): Sets Record Time while FREE, stepping forward or slewing. -/
  | timSet (q v : Nat)
  /-- FLT_PIT_SEL (R488): Selects a Pit Log record for the BAR0 window, which shows it or NOT_FOUND within 2 ms. -/
  | fltPitSel (q v : Nat)
  /-- LAMP_CAPTURE (R492): GO in FLT_LAMP_CTRL starts a Lamp Check capture of a bound partition. -/
  | lampCapture (q p : Nat)
  /-- LAMP_CAPTURE_END (R492): The summary is gathered into the function's window and STATE reads READY. -/
  | lampCaptureEnd (q : Nat)
  /-- COPY_RETRY (R251): A stalled copy engine walks again. -/
  | copyRetry (q e : Nat)
  /-- COPY_ABORT (R251): A stalled copy ends and its command retires with FAULT_ABORTED. -/
  | copyAbort (q e : Nat)
  /-- PORT_HOLD (R344): Setting or clearing HOLD keeps a Horash port DISABLED or lets it enable. -/
  | portHold (q port : Nat) (on : Bool)
  /-- RETRAIN (R373): An UP Horash port leaves UP with CAUSE 8. -/
  | retrain (q port : Nat)
  /-- LAUNCH (R296): Checks a launch and starts its gangs on the stage's district. -/
  | launch (p n : Nat) (c : List Byte)
  /-- GRAPH_LAUNCH (R314): Holds a graph version and starts its nodes in dependency order. -/
  | graphLaunch (p n : Nat) (c : List Byte)
  /-- GRAPH_PATCH (R313): Makes a new version of a graph from node images, or deletes it. -/
  | graphPatch (p n : Nat) (c : List Byte)
  /-- COPY (R299): Spreads copy descriptors over the partition's copy engines. -/
  | copy (p n : Nat) (c : List Byte)
  /-- COPY_INLINE (R300): Writes up to 240 bytes carried in the command. -/
  | copyInline (p n : Nat) (c : List Byte)
  /-- FENCE_SIGNAL (R301): Waits for earlier commands, releases and raises a semaphore. -/
  | fenceSignal (p n : Nat) (c : List Byte)
  /-- FENCE_WAIT (R301): Waits until a semaphore reaches VALUE, then acquires. -/
  | fenceWait (p n : Nat) (c : List Byte)
  /-- COND (R304): Tests a word and skips the next SKIP commands when the test holds. -/
  | cond (p n : Nat) (c : List Byte)
  /-- LOOP (R305): Repeats the next BODY commands up to COUNT times or until the test holds. -/
  | loop (p n : Nat) (c : List Byte)
  /-- RING_CALL (R306): The CALL command runs the commands of a buffer as though they stood in the ring. -/
  | ringCall (p n : Nat) (c : List Byte)
  /-- TIME_WAIT (R302): Waits until Record Time reaches TIME. -/
  | timeWait (p n : Nat) (c : List Byte)
  /-- TIME_WAIT_REACHED (R302): Record Time reaches a waiting TIME_WAIT's TIME and it retires. -/
  | timeWaitReached (p k : Nat)
  /-- GATE_WAIT (R302): Waits for COUNT GATE_OPEN events for its partition and level. -/
  | gateWait (p n : Nat) (c : List Byte)
  /-- TALLY_OPEN (R307): Opens the tally named in the header for the ring. -/
  | tallyOpen (p n : Nat) (c : List Byte)
  /-- TALLY_CLOSE (R446): Waits for earlier commands and the window end, then closes the tally with a signed record. -/
  | tallyClose (p n : Nat) (c : List Byte)
  /-- COMPLETE (R309): Waits for earlier commands, releases, writes a completion record or diverts it to the sump, and raises a vector. -/
  | complete (p n : Nat) (c : List Byte)
  /-- XLT_INVAL (R253): Advances the epoch, removes cached translations of a range and retires when older accesses end. -/
  | xltInval (p n : Nat) (c : List Byte)
  /-- TENSOR (R264): Declares a tensor, which the engine places and maps as zeroed pages. -/
  | tensor (p n : Nat) (c : List Byte)
  /-- RELEASE (R267): Releases a tensor, stage or conveyor and frees its resources. -/
  | release (p n : Nat) (c : List Byte)
  /-- STAGE (R265): Declares a stage and recomputes the district sizes. -/
  | stage (p n : Nat) (c : List Byte)
  /-- CONVEYOR (R266): Declares a conveyor end and places its buffer. -/
  | conveyor (p n : Nat) (c : List Byte)
  /-- REGION_LOAD (R219): The owner places and zeroes a region and maps it writable in LOADING. -/
  | regionLoad (p n : Nat) (c : List Byte)
  /-- SEAL (R267): Clears write permission of a tensor, or seals a region into its next state. -/
  | seal (p n : Nat) (c : List Byte)
  /-- REGION_MAP (R267): Maps a region read-only for a partition named in READERS. -/
  | regionMap (p n : Nat) (c : List Byte)
  /-- PLACE_QUERY (R279): Writes a 128-byte placement record for an object. -/
  | placeQuery (p n : Nat) (c : List Byte)
  /-- PLACE_PIN (R280): Pins or unpins a tensor, stage or the whole partition. -/
  | placePin (p n : Nat) (c : List Byte)
  /-- RED_JOIN (R379): Joins a reduction job, reading its rank table into a job buffer. -/
  | redJoin (p n : Nat) (c : List Byte)
  /-- LEAVE (R379): RED_JOIN with LEAVE set frees the job's buffer. -/
  | leave (p n : Nat) (c : List Byte)
  /-- RED_STEP (R384): Checks addresses, clears OUTCOME and arms the job for the next GO. -/
  | redStep (p n : Nat) (c : List Byte)
  /-- LAMP_CHECK (R489): Writes the partition's 16 KiB Lamp Check summary to DEST. -/
  | lampCheck (p n : Nat) (c : List Byte)
  /-- RESERVED_OPCODE (R292): A command with a reserved opcode or broken field does nothing and retires with an error code. -/
  | reservedOpcode (p n : Nat) (c : List Byte)
  /-- COMMAND_RETIRE (R289): A command retires in ring order, freeing slots, advancing HEAD and letting later commands and nodes start. -/
  | commandRetire (p k : Nat)
  /-- ADIT_RD (R256): An inbound adit read is checked against the inbound window and served or refused. -/
  | aditRd (m : AditReq)
  /-- ADIT_WR (R256): An inbound adit write is checked and performed, then answered at its point of coherence. -/
  | aditWr (m : AditReq)
  /-- ADIT_ATOM (R256): An inbound adit atomic is checked and performed at the home slice. -/
  | aditAtom (m : AditReq)
  /-- ADIT_RSP (R368): A response to an adit request completes the load, store or atomic it answers. -/
  | aditRsp (m : AditRsp)
  /-- AGENT_REQUEST (R260): A coherent agent's read, ownership or writeback request is served at the line's home. -/
  | agentRequest (a line : Nat) (r : AgentReq)
  /-- AGENT_TIMEOUT (R261): An agent fails to answer a recall in 100 µs and is declared failed. -/
  | agentTimeout (a line : Nat)
  /-- REFRESH (R207): An all-bank refresh falls due on a pseudo-channel. -/
  | refresh (pch : Nat)
  /-- WC_ENTRY_TIMEOUT (R210): A write-combining entry held for 2 µs leaves for its channel. -/
  | wcEntryTimeout (sl i : Nat)
  /-- PHY_MARGIN_LOSS (R223): A PHY reports loss of timing margin, scheduling a retrain in the next fitting window. -/
  | phyMarginLoss (ch : Nat)
  /-- URGENT_RETRAIN (R223): 16 consecutive failed accesses hold the channel for an immediate retrain. -/
  | urgentRetrain (ch : Nat)
  /-- CHANNEL_HOLD_END (R223): A retrain or lane repair completes within its hold and the channel is LIVE again. -/
  | channelHoldEnd (ch : Nat) (stuck : Option Nat)
  /-- CHANNEL_HOLD_EXPIRY (R225): A hold ends without completion and the channel dies. -/
  | channelHoldExpiry (ch : Nat)
  /-- CHANNEL_TRAINING_END (R202): HBM training after D4 ends and each channel reports its pages or dies. -/
  | channelTrainingEnd (failed : List Nat)
  /-- EVALUATION_TIMER (R274): With no cadence, the placement engine evaluates every 1 ms without changing anything. -/
  | evaluationTimer
  /-- CREW_PROPOSAL (R270): Crew proposes a placement decision, which the table writers check against the Survey masks. -/
  | crewProposal (d : Proposal)
  /-- MOVE_GROUP_END (R275): A moved group's frame map and leaves are rewritten and its old pages freed. -/
  | moveGroupEnd (p t : Nat)
  /-- FORCED_MOVE_START (R276): Once commands in flight retire, a forced move begins. -/
  | forcedMoveStart (p t : Nat)
  /-- PPS_EDGE (R324): A rising edge on PPS_IN is qualified, timestamped and corrected toward the target time. -/
  | ppsEdge (high : Nat)
  /-- PPS_TIMEOUT (R327): No edge for 1.5 s moves the timebase to HOLDOVER or a fabric source. -/
  | ppsTimeout
  /-- HOLDOVER_EXPIRY (R323): After 100 s in HOLDOVER, CLASS becomes 3 and SYNC 0. -/
  | holdoverExpiry
  /-- SLEW_END (R326): A slew removes its error and SLEWING clears. -/
  | slewEnd
  /-- TIME (R328): A neighbour's timing message updates link delay, offset and the choice of source. -/
  | time (port : Nat) (m : TimeMsg)
  /-- TIME_EXCHANGE_TIMER (R328): Every 1 ms a TIME message is sent on each UP port. -/
  | timeExchangeTimer
  /-- CADENCE_PERIOD_START (R331): A cadence period begins at a multiple of P, taking any pending cadence set. -/
  | cadencePeriodStart
  /-- GATE_OPEN (R333): Counts once toward each waiting GATE_WAIT of the partition and levels. -/
  | gateOpen (k : Nat)
  /-- GO (R384): Begins an armed job's reduction attempt. -/
  | go (k : Nat)
  /-- SHOT_BEGIN (R335): Opens a shot window for scrub, retrains, moves and applies. -/
  | shotBegin (k : Nat)
  /-- SHOT_END (R335): Closes the shot window; work left carries over. -/
  | shotEnd (k : Nat)
  /-- TALLY_CUT (R447): Ends a window and each partition's energy interval, unless within 10 ms of the last honoured cut. -/
  | tallyCut (k : Nat) (m : Sample)
  /-- SNAPSHOT (R333): Latches Record Time and samples every ring's progress counters. -/
  | snapshot (k : Nat)
  /-- STEP_DEADLINE (R390): Closes a job's current step and each rank sends its verdict to the tail. -/
  | stepDeadline (k : Nat)
  /-- LANE_SIGNAL_DETECT (R344): Signal seen on every lane of one half moves a port from DETECT to TRAIN. -/
  | laneSignalDetect (port lanes : Nat)
  /-- TRAIN_COMPLETE (R344): Equalisation, FEC lock and deskew complete and the port enters DISCOVER. -/
  | trainComplete (port lanes : Nat)
  /-- TRAIN_TIMEOUT (R344): TRAIN lasts 50 ms and the port enters HOLD with CAUSE 2. -/
  | trainTimeout (port : Nat)
  /-- DISCOVER_TIMEOUT (R344): DISCOVER lasts 1 ms and the port enters HOLD with CAUSE 1. -/
  | discoverTimeout (port : Nat)
  /-- HOLD_TIMEOUT (R344): After 100 ms in HOLD the port returns to DETECT. -/
  | holdTimeout (port : Nat)
  /-- LINK_LOSS (R349): 1 µs without valid or correctable frames declares a Horash link lost and the port enters HOLD. -/
  | linkLoss (port lost : Nat)
  /-- FRAME_REPLAY (R349): A frame the FEC cannot correct is replayed from the sender's replay buffer. -/
  | frameReplay (port : Nat)
  /-- HELLO (R352): A neighbour's HELLO is checked for version, width and identity and may bring the port UP. -/
  | hello (port : Nat) (m : HelloMsg)
  /-- HELLO_TIMER (R351): Every 100 ms a HELLO is sent on each UP port. -/
  | helloTimer
  /-- LSA (R353): A link-state message updates the topology, routes and reachability, and is flooded on. -/
  | lsa (port : Nat) (m : LsaMsg)
  /-- LSA_TIMER (R353): Every 100 ms the device floods its own LSA. -/
  | lsaTimer
  /-- LSA_EXPIRY (R353): An LSA not refreshed for 1 s is discarded and its origin leaves the topology. -/
  | lsaExpiry (serial : Nat)
  /-- LEADER_ELECTION (R355): After 10 ms without topology change the leader is computed. -/
  | leaderElection
  /-- ASSIGN_REQ (R356): A request for a device ID is recorded by the leader and flooded on. -/
  | assignReq (port : Nat) (m : AssignReqMsg)
  /-- ASSIGN_REQ_TIMER (R356): An OPEN device without an ID floods an ASSIGN_REQ every 10 ms. -/
  | assignReqTimer
  /-- LEADER_ASSIGN_TIMER (R356): Every 1 ms the leader assigns IDs to pending requests. -/
  | leaderAssignTimer
  /-- ASSIGN (R356): The target device takes the assigned ID. -/
  | assign (port : Nat) (m : AssignMsg)
  /-- REACH (R366): A REACH message declares its destination unreachable. -/
  | reach (d : Nat)
  /-- REACH_HOLD_EXPIRY (R366): 1 ms after a REACH a destination with a live path may be declared reachable again. -/
  | reachHoldExpiry (d : Nat)
  /-- FLIT_FORWARD (R360): A flit in transit is sent on a live port chosen by hash, or dropped. -/
  | flitForward (port : Nat) (f : Flit)
  /-- CV_DATA (R370): Conveyor entries from the far producer are placed by sequence number. -/
  | cvData (m : CvDataMsg)
  /-- CV_CREDIT (R370): Received and freed counts from the consumer update the producer's window or close it. -/
  | cvCredit (m : CvCreditMsg)
  /-- CV_CREDIT_TIMER (R370): Every 10 µs the consumer resends CV_CREDIT while counters differ from those last sent. -/
  | cvCreditTimer (p c : Nat)
  /-- CV_RESEND (R370): RECEIVED stalls for 100 µs and the producer resends outstanding entries. -/
  | cvResend (p c : Nat)
  /-- RED_PART (R383): A partial sum arrives, is added to this rank's contribution and sent on. -/
  | redPart (m : RedMsg)
  /-- RED_SUM (R385): A final chunk sum reaches its owner, which writes it or applies its rule. -/
  | redSum (m : RedMsg)
  /-- RED_PARAM (R386): Updated parameters of a chunk are written to this rank's DEST. -/
  | redParam (m : RedMsg)
  /-- RED_VERDICT (R390): The tail records a rank's verdict and decides once it holds all of them. -/
  | redVerdict (m : RedMsg)
  /-- RED_DECISION (R390): A rank writes the tail's decision to OUTCOME and retires its RED_STEP. -/
  | redDecision (m : RedMsg)
  /-- DECISION_TIMEOUT (R390): 50 µs after the deadline the tail decides with the verdicts it holds. -/
  | decisionTimeout (job : Nat)
  /-- NO_DECISION_TIMEOUT (R390): No decision reaches a rank by 100 µs after its deadline, so it retires with NO_DECISION. -/
  | noDecisionTimeout (job : Nat)
  /-- BAR2_READ (R399): A host read of BAR2 is translated and served at the home slice. -/
  | bar2Read (r : HostReq) (len : Nat)
  /-- BAR2_WRITE (R399): A host or peer write to BAR2 is translated and performed, or dropped. -/
  | bar2Write (r : HostReq) (data : List Byte)
  /-- CONFIG_REQUEST (R397): A PCI Express configuration request is answered or acts on configuration space. -/
  | configRequest (port fn : Nat) (r : CfgReq)
  /-- HOST_COMPLETION (R194): A completion from the host completes a host load or a zero-length XPORT read. -/
  | hostCompletion (port tag : Nat) (ok : Bool) (data : List Byte)
  /-- PERST (R409): Assertion of a port's PERST resets that port's domain. -/
  | perst (port : Nat)
  /-- PERST_RELEASE (R460): Deassertion of PERST lets the port train and answer configuration. -/
  | perstRelease (port : Nat)
  /-- DL_DOWN (R409): The data link goes down and the port domain resets. -/
  | dlDown (port : Nat)
  /-- HOT_RESET (R409): A Hot Reset arrives and the port domain resets. -/
  | hotReset (port : Nat)
  /-- CREDIT_TIMEOUT (R409): The port cannot send a posted write for 4 ms and its domain resets. -/
  | creditTimeout (port : Nat)
  /-- LINK_RECOVERY (R411): The link passes through Recovery without DL_Down and RETRAINS rises. -/
  | linkRecovery (port : Nat)
  /-- FUNCTION_LEVEL_RESET (R412): Resets one function, its bindings and the rings of its partitions. -/
  | functionLevelReset (q : Nat)
  /-- PORT_READY (R410): After a port reset the port becomes ready and its pending vectors are raised. -/
  | portReady (port rate width : Nat) (flit : Bool)
  /-- FW_UPDATE (R428): Checks a firmware image and writes it to a Deputy slot or the Crew region. -/
  | fwUpdate (q slot : Nat)
  /-- SVN_COMMIT (R425): Raises counters 0 and 1 to the running SVNs. -/
  | svnCommit (q : Nat)
  /-- OWNER_KEY (R426): Enrols or removes an owner key from a signed request block. -/
  | ownerKey (q : Nat)
  /-- RETIRE_PAGE (R218): Adds a page to the retired-page list for replacement. -/
  | retirePage (q : Nat)
  /-- CLAIM_PRIMARY (R402): The other port's physical function takes the primary role after 1 s of loss. -/
  | claimPrimary (q : Nat)
  /-- DEBUG_LOCK (R428): Ends every JTAG unlock at once. -/
  | debugLock (q : Nat)
  /-- MAILBOX_OPERATION_END (R427): A Deputy mailbox operation ends and the next pending mailbox is taken. -/
  | mailboxOperationEnd (blk : Option (List Byte)) (flashOk : Bool)
  /-- DOE_DISCOVERY (R429): Answers a DOE discovery request. -/
  | doeDiscovery (port idx : Nat)
  /-- GET_VERSION (R429): Answers with SPDM version 1.2. -/
  | getVersion (port : Nat)
  /-- GET_CAPABILITIES (R429): Answers with the supported SPDM capabilities. -/
  | getCapabilities (port : Nat)
  /-- NEGOTIATE_ALGORITHMS (R429): Selects ECDSA P-256 and SHA-256 or refuses. -/
  | negotiateAlgorithms (port : Nat) (p256 sha : Bool)
  /-- GET_DIGESTS (R429): Returns the digest of the slot 0 chain. -/
  | getDigests (port : Nat)
  /-- GET_CERTIFICATE (R429): Returns the slot 0 certificate chain. -/
  | getCertificate (port slot off len : Nat)
  /-- CHALLENGE (R429): Returns a response signed by the alias key with a measurement summary. -/
  | challenge (port slot : Nat) (nonce : List Byte)
  /-- GET_MEASUREMENTS (R430): Returns measurement blocks 1 to 5, signed when requested. -/
  | getMeasurements (port idx : Nat) (sign : Bool) (nonce : List Byte)
  /-- UNLOCK_CHALLENGE (R431): A JTAG read of the unlock challenge draws a new nonce. -/
  | unlockChallenge
  /-- UNLOCK (R431): A signed unlock block is checked and JTAG access granted for a partition mask or Crew. -/
  | unlock (b : UnlockBlk)
  /-- CREW_ACCESS (R417): A Crew access is checked by the filter, and a refusal is a Crew failure. -/
  | crewAccess (core : Nat) (r : CrewRes) (wr : Bool) (addr v : Nat)
  /-- CREW_HEARTBEAT_MISS (R432): A Crew core misses its 50 ms heartbeat and Crew is reset and reloaded. -/
  | crewHeartbeatMiss (core : Nat)
  /-- CREW_RELOAD_END (R432): Crew is reloaded and resumes its duties. -/
  | crewReloadEnd
  /-- DEPUTY_SELF_RESET (R433): The Deputy core resets itself on an error or failure. -/
  | deputySelfReset (cause : Nat)
  /-- DEPUTY_RESTART_END (R433): The Deputy returns and queued work resumes. -/
  | deputyRestartEnd
  /-- WINDOW_END (R439): Every 1,000,000 cycles the Checkweigher reconciles the window's energy to units. -/
  | windowEnd (m : Sample)
  /-- REFERENCE_CHECK (R438): Every 60 s each converter samples the package reference and corrects or faults. -/
  | referenceCheck (conv drift : Nat)
  /-- AUTO_CUT (R447): With no cut honoured for 1 s the Checkweigher cuts by itself. -/
  | autoCut (m : Sample)
  /-- ENERGY_RECORD_SIGN (R450): The Deputy signs a held energy record, which then goes to the ring. -/
  | energyRecordSign (p : Nat)
  /-- CHECKWEIGHER_SELF_RESET (R455): The Checkweigher resets itself and estimates the gap. -/
  | checkweigherSelfReset
  /-- FAULT_HOLD_RETRY (R481): Every 1 ms the device retries writing held fault records. -/
  | faultHoldRetry
  /-- PIT_LOG_WRITE (R486): The Deputy writes a queued Pit Log record, erasing a sector first when needed. -/
  | pitLogWrite
  /-- PIT_INFO (R494): A sideband request returns the newest and oldest Pit Log SEQ. -/
  | pitInfo
  /-- PIT_READ (R496): A sideband request reads bytes of a Pit Log record from a copy. -/
  | pitRead (sq off len : Nat)
  /-- LAMP_READ (R494): A sideband request reads bytes of a Lamp Check summary, optionally fresh. -/
  | lampRead (p : Nat) (fresh : Bool) (off len : Nat)
  /-- PWR_GOOD_RISE (R457): PWR_GOOD rises and, with SYS_RST_N high, marks t0. -/
  | pwrGoodRise (railsOk : Bool)
  /-- PWR_GOOD_FALL (R456): PWR_GOOD falls, causing a full reset and releasing the pins. -/
  | pwrGoodFall
  /-- SYS_RST_N_LOW (R457): A low pulse on SYS_RST_N causes a full reset. -/
  | sysRstNLow (ns : Nat)
  /-- SYS_RST_N_HIGH (R457): SYS_RST_N rises and, with PWR_GOOD high, marks t0. -/
  | sysRstNHigh
  /-- RAIL_UNDERVOLTAGE (R505): VBASE or a VCORE rail below 90% for 2 µs resets the device. -/
  | railUndervoltage
  /-- DOMAIN_RELEASE (R459): The sequencer releases the next domain after its gap and action. -/
  | domainRelease (b : BootIn)
  /-- SHIFT_READY (R461): D6 is released and ATTEMPTS cleared, disarming the watchdog. -/
  | shiftReady
  /-- BOOT_WATCHDOG (R461): 30 s pass without shift ready; the cause is stored and the device fully reset. -/
  | bootWatchdog
  /-- SEQUENCER_SELF_RESET (R463): An error in one sequencer state copy is repaired from the other. -/
  | sequencerSelfReset (both : Bool)
  /-- DIE_FATAL (R464): A compute die reports a fatal error and the device fully resets. -/
  | dieFatal (t : Nat)
  /-- FULL_RESET (R458): Requests a software full reset 1 ms later. -/
  | fullReset (q : Nat)
  /-- SOFTWARE_RESET_DELAY (R458): 1 ms after FULL_RESET the full reset takes effect. -/
  | softwareResetDelay
  /-- POWER_DOWN (R465): Starts an orderly power-down that drains, signs final records and holds D2 to D6. -/
  | powerDown (q : Nat)
  /-- POWER_DOWN_END (R465): The power-down completes or its 200 ms end and SAFE_OFF is set. -/
  | powerDownEnd (m : Sample) (undrained : Nat)
  /-- TIER_RESET (R464): Resets one tier's compute die when no gang is resident. -/
  | tierReset (q t : Nat)
  /-- TIER_FORCE (R464): Marks rings with gangs on the tier guilty and resets the tier. -/
  | tierForce (q t : Nat)
  /-- TIER_RESET_END (R464): A tier reset ends and its cores return to their districts. -/
  | tierResetEnd (t : Nat)
  /-- EXIT_REFUGE (R473): Clears ATTEMPTS and causes a full reset. -/
  | exitRefuge (q : Nat)
  /-- PACING_UPDATE (R509): Every 10 µs each tier's pacing share is set from envelope and thermal needs. -/
  | pacingUpdate (m : PaceIn)
  /-- THERMAL_TRIP (R511): A sensor reaches its trip temperature, THERM_TRIP_N falls and all work stops. -/
  | thermalTrip (sensor : Nat)
  /-- VCORE_SETPOINT_UPDATE (R507): Every 10 ms a tier's set-point is re-evaluated and moved in 5 mV steps. -/
  | vcoreSetpointUpdate (t temp : Nat)
  /-- AVS_WRITE_TIMEOUT (R508): A Voltage write draws no acknowledgement in 10 µs and is retried or the tier marked failed. -/
  | avsWriteTimeout (t : Nat) (fault : Bool)
  /-- AVS_RETRY (R508): Every 1 ms a failed tier's regulator write is retried. -/
  | avsRetry (t : Nat) (ack : Bool)
  /-- TRST_N (R512): TRST_N low resets the TAP. -/
  | trstN
  /-- EXTEST (R512): A pin-control TAP instruction is accepted only in reset or SAFE_OFF, otherwise BYPASS is loaded. -/
  | extest
  /-- PATROL_SCRUB (R215): A channel serves an owed patrol-scrub read of a line, rewriting it corrected, repairing a guarded copy, or poisoning and recording an uncorrectable line. -/
  | patrolScrub (ch : Nat) (flips : List Flip)
  /-- ILLEGAL_OPCODE (R101): A gang issues an instruction word whose opcode is undefined or reserved (or lands on an extension word), which raises ILLEGAL_OPCODE. -/
  | illegalOpcode (g : Nat) (w x : DWord)
  deriving DecidableEq, Repr

end Sys2Proof
end

