-- ==== Sys2Proof/Config.lean ====
section
/-!
DEFINITION. What one part fixes and the spec leaves open: the free values, constants with no body, and the functions the
spec names without defining (hashes, signatures, the physically unclonable function, the approximate functions).
Nothing in this model evaluates them.
-/

namespace Sys2Proof.Config

/-- The device serial, from the vendor-signed trim record (R24): a property of the part. -/
opaque devSerial : DWord

/-- The n-th free value the machine draws (log entry 2): the source states no value there. -/
opaque freeValue : Nat → DWord

/-- The 256-bit digest of SHA-256 (R28, R419, R448): named by the spec, defined outside it. -/
opaque digest : List Byte → BitVec 256

/-- SHA-256: the 32 bytes of the digest, the first byte its most significant one. -/
def sha256 (m : List Byte) : List Byte := (List.range 32).map fun i => (digest m).extractLsb' (8 * (31 - i)) 8

/-- ECDSA P-256 verification (R30, R419, R426): public key X then Y, digest, signature r then s. -/
opaque ecdsaVerify : List Byte → List Byte → List Byte → Bool

/-- ECDSA P-256 signature by the private key of the given number (R424, R450). -/
opaque ecdsaSign : Nat → List Byte → List Byte

/-- The public key, X then Y, of a private key. -/
opaque publicKey : Nat → List Byte

/-- HMAC-SHA-256 as a big-endian integer (R423). -/
opaque hmacSha256 : Nat → List Byte → Nat

/-- The seed that the physically unclonable function yields once corrected (R423). -/
opaque pufSeed : Nat

/-- The order n of P-256 (R423): named by the spec, defined outside it. -/
opaque p256Order : Nat

/-- The hash of the vendor's public key held in the boot ROM (R420). -/
opaque vendorKeyHash : List Byte

/-- SHA-256 of the boot ROM (R430, index 1). -/
opaque romHash : List Byte

/-- The DER bytes of the vendor root, device-identity authority and device certificates (R424, R429). -/
opaque vendorChain : List Byte

/-- The DER bytes of the device certificate (R424, R448). -/
opaque deviceCert : List Byte

/-- The alias certificate that a boot issues for an alias key and a Deputy measurement (R424). -/
opaque aliasCert : Nat → List Byte → List Byte

/-- Byte i of the Crew image with which the part was shipped (R418): the spec gives no contents. -/
opaque shippedCrew : Nat → Byte

/-- The random nonce of the n-th unlock challenge (R431): 16 bytes. -/
opaque nonce : Nat → List Byte

/-- The approximate functions of R519 as fixed functions of their input bits (R163, R174); the spec gives error bounds. -/
opaque approx : Nat → Word → Word

/-- A slot after a vector whose tile was loaded under another format than the run's (R133, R174): a function of the slot's old bits, the
vector, its scales, the modes and the tile's column. The spec states no value. -/
opaque mixedSlot : List Nat → Word

/-- Where the placement engine keeps table n in the reserved pages (R202, R241): the spec gives no place. -/
opaque tablePlace : Nat → Nat

/-- The syndrome of the words of an L2 data-array line with double-bit errors (R230, R479): the spec does not give the code. -/
opaque secded : List Nat → Nat

/-- The static energy model of a pool, in pJ, from mean voltages, mean temperature and length (R438, R440). -/
opaque staticModel : Nat → List Nat → Nat → Nat → Nat

/-- The activity weight of counter k in the calibration record (R438, R441). -/
opaque weight : Nat → Nat

/-- The attribution residual of a pool, in ppm (R438, R449). -/
opaque residual : Nat → Nat

/-- The trim record's set-point of a tier for 1.000 GHz at a temperature, in units of 5 mV (R507). -/
opaque trimSetPoint : Nat → Nat → Nat

/-- Subsystem vendor ID and subsystem ID, from the vendor-signed trim record (R397). -/
opaque subsystemIds : Nat

/-- The filter over the last 8 measured offsets of a timing exchange, in ns (R328): the spec gives no formula. -/
opaque offsetFilter : List Int → Int

/-- A placement estimate's gain, in percent, for object o of partition p at evaluation n (R273): the spec gives no formula. -/
opaque gain : Nat → Nat → Nat → Nat

end Sys2Proof.Config
end

