-- ==== Sys2Proof/Machine/Bits.lean ====
section
/-!
DEFINITION. Bit fields, sign extension and byte order. Bit ranges are written [high:low] (Units and notation);
registers, records and in-memory structures are little-endian (R7).
-/

namespace Sys2Proof.Machine

/-- Bits [hi:lo] of a number. -/
def bits (v hi lo : Nat) : Nat := v / 2 ^ lo % 2 ^ (hi + 1 - lo)

/-- Bit i of a number. -/
def bit (v i : Nat) : Bool := v / 2 ^ i % 2 == 1

/-- Bits [hi:lo] of a word. -/
def fld {n : Nat} (w : BitVec n) (hi lo : Nat) : Nat := bits w.toNat hi lo

/-- 1 for true. -/
def b2n (b : Bool) : Nat := if b then 1 else 0

/-- A register's value from its fields, each (lowest bit, value). -/
def pack (fs : List (Nat × Nat)) : Nat := fs.foldl (fun a f => a + f.2 * 2 ^ f.1) 0

/-- The signed value of the low n bits of v. -/
def sgn (n v : Nat) : Int :=
  let u := v % 2 ^ n
  if u < 2 ^ (n - 1) then (u : Int) else (u : Int) - (2 ^ n : Nat)

/-- The two's-complement code of an integer in n bits. -/
def twos (n : Nat) (i : Int) : Nat := (i % ((2 ^ n : Nat) : Int)).toNat

/-- Little-endian value of a byte list. -/
def leVal : List Byte → Nat
  | [] => 0
  | b :: t => b.toNat + 256 * leVal t

/-- The n little-endian bytes of a value. -/
def leBytes : Nat → Nat → List Byte
  | 0, _ => []
  | n + 1, v => BitVec.ofNat 8 v :: leBytes n (v / 256)

/-- Big-endian value of a byte list (signatures and keys, R30, R419). -/
def beVal (l : List Byte) : Nat := leVal l.reverse

/-- n bytes of a byte list from offset i; bytes beyond the list read as zero. -/
def slice (l : List Byte) (i n : Nat) : List Byte :=
  let t := (l.drop i).take n
  t ++ List.replicate (n - t.length) 0#8

/-- The little-endian field of n bytes at offset i. -/
def leAt (l : List Byte) (i n : Nat) : Nat := leVal ((l.drop i).take n)

/-- The byte at offset i. -/
def u8 (l : List Byte) (i : Nat) : Nat := leAt l i 1

/-- The 2-byte field at offset i. -/
def u16 (l : List Byte) (i : Nat) : Nat := leAt l i 2

/-- The 4-byte field at offset i. -/
def u32 (l : List Byte) (i : Nat) : Nat := leAt l i 4

/-- The 8-byte field at offset i. -/
def u64 (l : List Byte) (i : Nat) : Nat := leAt l i 8

/-- The bytes at offsets i to i + n − 1 are all zero (a reserved field, R39). -/
def zeroAt (l : List Byte) (i n : Nat) : Bool := ((l.drop i).take n).all (· == 0#8)

/-- Pads a byte list with zeros to n bytes, or cuts it there. -/
def padTo (n : Nat) (l : List Byte) : List Byte := slice l 0 n

/-- The bytes of an ASCII string. -/
def ascii (t : String) : List Byte := t.toList.map fun c => BitVec.ofNat 8 c.toNat

/-- ⌈a / b⌉. -/
def ceilDiv (a b : Nat) : Nat := (a + b - 1) / b

/-- v rounded up to a multiple of m. -/
def alignUp (v m : Nat) : Nat := ceilDiv v m * m

/-- v is a power of two. -/
def isPow2 (v : Nat) : Bool := v != 0 && 2 ^ Nat.log2 v == v

/-- The set bits of a mask, ascending, among the first n. -/
def setBits (n v : Nat) : List Nat := (List.range n).filter (bit v)

/-- The number of set bits among the first n. -/
def popc (n v : Nat) : Nat := (setBits n v).length

/-- The mask whose set bits are listed. -/
def maskOf (l : List Nat) : Nat := l.foldl (fun a i => if bit a i then a else a + 2 ^ i) 0

/-- Leading zero bits of the low n bits of v. -/
def clz (n v : Nat) : Nat := if v % 2 ^ n = 0 then n else n - 1 - Nat.log2 (v % 2 ^ n)

/-- The low n bits of v in reverse order. -/
def brev (n v : Nat) : Nat := (List.range n).foldl (fun a i => a * 2 + bits v i i) 0

end Sys2Proof.Machine
end

