-- ==== Sys2Proof/Machine/Flags.lean ====
section
/-!
DEFINITION. Results: the integer results of R109 and R518, the number formats of R158, rounding and conversion (R162 to R167),
the floating-point results of R163, R168 and R519, and the comparisons that predicates take. The device keeps no exception
flags (R160).
-/

namespace Sys2Proof.Machine

/-! Integer results; n is the width, 32 or 64. -/

def iadd (n a b : Nat) : Nat := (a + b) % 2 ^ n
def isub (n a b : Nat) : Nat := modSub (2 ^ n) a b
def imul (n a b : Nat) : Nat := a * b % 2 ^ n
def imulhiU (n a b : Nat) : Nat := a * b / 2 ^ n
def imulhiS (n a b : Nat) : Nat := twos n (sgn n a * sgn n b / (2 ^ n : Nat))
def imad (n a b c : Nat) : Nat := (a * b + c) % 2 ^ n
def idivU (n a b : Nat) : Nat := if b = 0 then 2 ^ n - 1 else a / b
def iremU (a b : Nat) : Nat := if b = 0 then a else a % b
def idivS (n a b : Nat) : Nat := if b = 0 then 2 ^ n - 1 else twos n ((sgn n a).tdiv (sgn n b))
def iremS (n a b : Nat) : Nat := if b = 0 then a else twos n ((sgn n a).tmod (sgn n b))
def iminS (n a b : Nat) : Nat := if sgn n a ≤ sgn n b then a else b
def imaxS (n a b : Nat) : Nat := if sgn n a ≤ sgn n b then b else a
def iabs (n a : Nat) : Nat := twos n (sgn n a).natAbs
def ineg (n a : Nat) : Nat := isub n 0 a
def inot (n a : Nat) : Nat := 2 ^ n - 1 - a
def ishl (n a c : Nat) : Nat := if c ≥ n then 0 else a * 2 ^ c % 2 ^ n
def ishr (n a c : Nat) : Nat := if c ≥ n then 0 else a / 2 ^ c
def isar (n a c : Nat) : Nat := twos n (sgn n a / (2 ^ min c n : Nat))

/-! Formats. -/

/-- A binary format (R158): mantissa bits, bias, width, greatest finite code, infinity and NaN codes (R160, R164). -/
structure Fmt where
  mb : Nat
  bias : Nat
  width : Nat
  top : Nat
  inf : Option Nat
  nan : Nat
  nanLo : Nat
  deriving DecidableEq, Repr

/-- FP32. -/
def fp32 : Fmt := { mb := 23, bias := 127, width := 32, top := 0x7F7FFFFF, inf := some 0x7F800000, nan := 0x7FC00000, nanLo := 0x7F800001 }

/-- The formats of codes 1 to 7 (R130, R520). `nanLo` is the least NaN code; a format without NaN has none. -/
def fmtOf : Nat → Fmt
  | 1 => { mb := 7, bias := 127, width := 16, top := 0x7F7F, inf := some 0x7F80, nan := 0x7FC0, nanLo := 0x7F81 }
  | 2 => { mb := 10, bias := 15, width := 16, top := 0x7BFF, inf := some 0x7C00, nan := 0x7E00, nanLo := 0x7C01 }
  | 3 => { mb := 3, bias := 7, width := 8, top := 0x7E, inf := none, nan := 0x7F, nanLo := 0x7F }
  | 4 => { mb := 2, bias := 15, width := 8, top := 0x7B, inf := some 0x7C, nan := 0x7E, nanLo := 0x7D }
  | 5 => { mb := 2, bias := 3, width := 6, top := 0x1F, inf := none, nan := 0x1F, nanLo := 0x20 }
  | 6 => { mb := 3, bias := 1, width := 6, top := 0x1F, inf := none, nan := 0x1F, nanLo := 0x20 }
  | 7 => { mb := 1, bias := 1, width := 4, top := 0x7, inf := none, nan := 0x7, nanLo := 0x8 }
  | _ => fp32

/-- A value: NaN, an infinity, or (−1)^neg × m × 2^e exactly. -/
inductive FVal where
  | nan
  | inf (neg : Bool)
  | fin (neg : Bool) (m : Nat) (e : Int)
  deriving DecidableEq, Repr

/-- The value of a code (R158, R159). -/
def Fmt.decode (f : Fmt) (c : Nat) : FVal :=
  let c := c % 2 ^ f.width
  let neg := bit c (f.width - 1)
  let k := c % 2 ^ (f.width - 1)
  if f.nanLo ≤ k then .nan
  else if f.inf = some k then .inf neg
  else
    let e := k / 2 ^ f.mb
    let m := k % 2 ^ f.mb
    if e = 0 then .fin neg m (1 - f.bias - f.mb) else .fin neg (m + 2 ^ f.mb) (e - f.bias - f.mb)

/-- Rounds the quotient n + rem / 2^d to an integer: to nearest even, toward zero, or by the word r (R162, R167). -/
def roundUp (rm r n rem d : Nat) : Nat :=
  let up := match rm with
    | 0 => decide (2 * rem > 2 ^ d) || (decide (2 * rem = 2 ^ d) && n % 2 == 1)
    | 1 => false
    | _ => rem != 0 && decide (rem * two32 / 2 ^ d + r ≥ two32)
  n + b2n up

/-- The sign bit of a format. -/
def Fmt.sign (f : Fmt) (neg : Bool) : Nat := b2n neg * 2 ^ (f.width - 1)

/-- An infinite value in a format (R164). -/
def Fmt.infCode (f : Fmt) (neg : Bool) : Nat := f.sign neg + f.inf.getD f.top

/-- The code of (−1)^neg × m × 2^e rounded under rm (R162 to R164, R167); a zero keeps the sign. -/
def Fmt.encode (f : Fmt) (rm r : Nat) (neg : Bool) (m : Nat) (e : Int) : Nat :=
  if m = 0 then f.sign neg
  else
    let emin : Int := 1 - f.bias - f.mb
    let l : Int := max (Nat.log2 m + e - f.mb) emin
    let n := if e ≥ l then m * 2 ^ (e - l).toNat
      else roundUp rm r (m / 2 ^ (l - e).toNat) (m % 2 ^ (l - e).toNat) (l - e).toNat
    let c := if n < 2 ^ f.mb then n else n + (l - emin).toNat * 2 ^ f.mb
    if c ≤ f.top then f.sign neg + c
    else if rm = 1 then f.sign neg + f.top
    else f.infCode neg

/-- A value's code in a format. -/
def Fmt.ofVal (f : Fmt) (rm r : Nat) : FVal → Nat
  | .nan => f.nan
  | .inf neg => f.infCode neg
  | .fin neg m e => f.encode rm r neg m e

/-- A value as an integer of n bits, two's complement, saturating (R164). -/
def intOfVal (n rm r : Nat) : FVal → Nat
  | .nan => 0
  | .inf neg => if neg then 2 ^ (n - 1) else 2 ^ (n - 1) - 1
  | .fin neg m e =>
    let k := if e ≥ 0 then m * 2 ^ e.toNat else roundUp rm r (m / 2 ^ (-e).toNat) (m % 2 ^ (-e).toNat) (-e).toNat
    if neg then (if k ≥ 2 ^ (n - 1) then 2 ^ (n - 1) else twos n (-k)) else min k (2 ^ (n - 1) - 1)

/-! FP32 arithmetic on codes. -/

def fval (a : Nat) : FVal := fp32.decode a

/-- The exact sum of two finite values, with the zero rules of R168. -/
def addFin (na : Bool) (ma : Nat) (ea : Int) (nb : Bool) (mb : Nat) (eb : Int) : FVal :=
  let e := min ea eb
  let v := fun (n : Bool) (m : Nat) (x : Int) =>
    let k : Int := (m * 2 ^ (x - e).toNat : Nat)
    if n then -k else k
  let t := v na ma ea + v nb mb eb
  if t = 0 then .fin (na && nb) 0 e else .fin (decide (t < 0)) t.natAbs e

/-- The exact sum of two values. -/
def addVal : FVal → FVal → FVal
  | .nan, _ => .nan
  | _, .nan => .nan
  | .inf a, .inf b => if a = b then .inf a else .nan
  | .inf a, _ => .inf a
  | _, .inf b => .inf b
  | .fin na ma ea, .fin nb mb eb => addFin na ma ea nb mb eb

/-- The exact product of two values. -/
def mulVal : FVal → FVal → FVal
  | .nan, _ => .nan
  | _, .nan => .nan
  | .inf a, .inf b => .inf (a != b)
  | .inf a, .fin b m _ => if m = 0 then .nan else .inf (a != b)
  | .fin a m _, .inf b => if m = 0 then .nan else .inf (a != b)
  | .fin a m x, .fin b n y => .fin (a != b) (m * n) (x + y)

def negVal : FVal → FVal
  | .nan => .nan
  | .inf a => .inf !a
  | .fin a m e => .fin (!a) m e

/-- A quotient with a sticky bit: enough bits that rounding it rounds the exact quotient. -/
def divVal : FVal → FVal → FVal
  | .nan, _ => .nan
  | _, .nan => .nan
  | .inf _, .inf _ => .nan
  | .inf a, .fin b _ _ => .inf (a != b)
  | .fin a _ _, .inf b => .fin (a != b) 0 0
  | .fin a m x, .fin b n y =>
    if n = 0 then (if m = 0 then .nan else .inf (a != b))
    else
      let k := m * 2 ^ 64 / n
      .fin (a != b) (2 * k + b2n (m * 2 ^ 64 % n != 0)) (x - y - 65)

/-- ⌊√n⌋, bit by bit from bit f. -/
def isqrt (n : Nat) : Nat → Nat → Nat
  | 0, r => r
  | f + 1, r => let t := r + 2 ^ f; isqrt n f (if t * t ≤ n then t else r)

/-- A square root with a sticky bit. -/
def sqrtVal : FVal → FVal
  | .nan => .nan
  | .inf false => .inf false
  | .inf true => .nan
  | .fin a m e =>
    if m = 0 then .fin a 0 e
    else if a then .nan
    else
      let (m, e) := if e % 2 = 0 then (m * 2 ^ 64, e - 64) else (m * 2 ^ 65, e - 65)
      let r := isqrt m 48 0
      .fin false (2 * r + b2n (r * r != m)) (e / 2 - 1)

def fadd (rm a b : Nat) : Nat := fp32.ofVal rm 0 (addVal (fval a) (fval b))
def fsub (rm a b : Nat) : Nat := fp32.ofVal rm 0 (addVal (fval a) (negVal (fval b)))
def fmul (rm a b : Nat) : Nat := fp32.ofVal rm 0 (mulVal (fval a) (fval b))
def ffma (rm a b c : Nat) : Nat := fp32.ofVal rm 0 (addVal (mulVal (fval a) (fval b)) (fval c))
def fdiv (rm a b : Nat) : Nat := fp32.ofVal rm 0 (divVal (fval a) (fval b))
def fsqrt (rm a : Nat) : Nat := fp32.ofVal rm 0 (sqrtVal (fval a))

/-- A NaN code. -/
def isNan (a : Nat) : Bool := fval a == .nan

/-- Codes in an order that puts −0 below +0; neither is a NaN. -/
def fkey (a : Nat) : Int := if bit a 31 then -((a % 2 ^ 31 : Nat) : Int) - 1 else (a % 2 ^ 31 : Nat)

/-- FMIN and FMAX (R163). -/
def fmin (a b : Nat) : Nat :=
  if isNan a && isNan b then fp32.nan else if isNan a then b else if isNan b then a else if fkey a ≤ fkey b then a else b
def fmax (a b : Nat) : Nat :=
  if isNan a && isNan b then fp32.nan else if isNan a then b else if isNan b then a else if fkey a ≤ fkey b then b else a

def fabs (a : Nat) : Nat := if isNan a then fp32.nan else a % 2 ^ 31
def fneg (a : Nat) : Nat := if isNan a then fp32.nan else a ^^^ 2 ^ 31

/-- Values as ordered numbers: −0 equals +0 (R159). -/
def fnum (a : Nat) : Int := if bit a 31 then -((a % 2 ^ 31 : Nat) : Int) else (a % 2 ^ 31 : Nat)

/-- The comparisons of R163: false with a NaN, but for not equal and unordered. -/
def fcmp (op : Nat) (a b : Nat) : Bool :=
  let u := isNan a || isNan b
  match op with
  | 0 => !u && fnum a == fnum b
  | 1 => u || fnum a != fnum b
  | 2 => !u && decide (fnum a < fnum b)
  | 3 => !u && decide (fnum a ≤ fnum b)
  | 4 => !u && decide (fnum a > fnum b)
  | 5 => !u && decide (fnum a ≥ fnum b)
  | 6 => u
  | _ => !u

/-! The approximate functions (R519). A fixed-point number counts units of 2^−200 where nothing else is said. -/

/-- 2^64 × 2^x for 0 ≤ x < 1, x in units of 2^−64: the series of e^(x ln 2), whose terms beyond the n-th are below its rounding. -/
def expSeries (x : Nat) : Nat → Nat → Nat → Nat
  | 0, _, term => term
  | n + 1, k, term => term + expSeries x n (k + 1) (term * (x * 0xB17217F7D1CF79AC / 2 ^ 64) / 2 ^ 64 / k)

/-- 2^y for y in units of 2^−64. -/
def exp2Fix (y : Int) : Nat :=
  let i := y / (2 ^ 64 : Nat)
  let p := expSeries (y % (2 ^ 64 : Nat)).toNat 24 1 (2 ^ 64)
  if i ≥ 128 then 2 ^ 328 else if i ≥ -136 then p * 2 ^ (i + 136).toNat else if i ≥ -400 then p / 2 ^ (-136 - i).toNat else 0

/-- The next n binary digits of log₂ y, for y in [1, 2) in units of 2^−160. -/
def log2Digits (y : Nat) : Nat → Nat
  | 0 => 0
  | n + 1 =>
    let z := y * y / 2 ^ 160
    if z ≥ 2 ^ 161 then 2 ^ n + log2Digits (z / 2) n else log2Digits z n

/-- Alternating terms x^k / k!, x in units of 2^−64, from the k-th on: the series of sin and cos. -/
def trigSeries (x : Nat) : Nat → Nat → Int → Int
  | 0, _, term => term
  | n + 1, k, term => term + trigSeries x n (k + 2) (-(term * (x * x / 2 ^ 64 : Nat) / (2 ^ 64 : Nat) / (k * (k + 1) : Nat)))

/-- |m × 2^e| in units of 2^−64. -/
def fix64 (m : Nat) (e : Int) : Nat := if e ≥ -64 then m * 2 ^ (e + 64).toNat else m / 2 ^ (-64 - e).toNat

/-- The exact function's value at (−1)^neg × m × 2^e, to far less than the bound of R519, and infinity as 2^128. -/
def approxTarget (op : Nat) (neg : Bool) (m : Nat) (e : Int) : Int :=
  let signed := fun (x : Nat) => if neg then -(x : Int) else (x : Int)
  match op with
  | 0 => signed (min (2 ^ 328) (2 ^ (200 - e).toNat / m))
  | 1 => isqrt (2 ^ (400 - e).toNat / m) 280 0
  | 2 => exp2Fix (signed (fix64 m e))
  | 3 => ((Nat.log2 m + e) * (2 ^ 60 : Nat) + log2Digits (m * 2 ^ (160 - Nat.log2 m)) 60) * (2 ^ 140 : Nat)
  | 4 => (let x := trigSeries (fix64 m e) 20 2 (fix64 m e); if neg then -x else x) * (2 ^ 136 : Nat)
  | 5 => trigSeries (fix64 m e) 20 1 (2 ^ 64) * (2 ^ 136 : Nat)
  | _ =>
    let q := exp2Fix (-(fix64 m e * 2 * 0x171547652B82FE177 / 2 ^ 64 : Nat)) / 2 ^ 72
    signed ((2 ^ 128 - q) * 2 ^ 200 / (2 ^ 128 + q))

/-- The unit in the last place of a value (R519). -/
def ulpOf (x : Nat) : Nat := 2 ^ (max (Nat.log2 x) 74 - 23)

/-- The bound of R519. -/
def approxBound (op a : Nat) (x : Int) : Nat :=
  match op with
  | 0 => ulpOf x.natAbs
  | 3 => if 0x3F000000 ≤ a ∧ a ≤ 0x40000000 then 2 ^ 178 else 2 * ulpOf x.natAbs
  | 4 => 2 ^ 180
  | 5 => 2 ^ 180
  | 6 => 2 ^ 179
  | _ => 2 * ulpOf x.natAbs

/-- A code's value; none for a NaN. -/
def fixOf (c : Nat) : Option Int :=
  match fval c with
  | .nan => none
  | .inf n => some (if n then -(2 ^ 328 : Nat) else (2 ^ 328 : Nat))
  | .fin n m e => some (if n then -(m * 2 ^ (e + 200).toNat : Nat) else (m * 2 ^ (e + 200).toNat : Nat))

/-- A code lies within the bound of the exact function's value: exactly for reciprocal and reciprocal square root, for the others give
or take the bound's 2^−32nd part, more than the computed target is off; a sine or cosine of an argument outside [−π, π] lies in
[−1, 1]. -/
def approxWithin (op a c : Nat) : Bool :=
  match fval a, fixOf c with
  | .fin n m e, some v =>
    if (op = 4 ∨ op = 5) ∧ a % 2 ^ 31 > 0x40490FDA then decide (v.natAbs ≤ 2 ^ 200)
    else
      let x := approxTarget op n m e
      let b := approxBound op a x
      match op with
      | 0 =>
        if x.natAbs = 2 ^ 328 then decide ((v - x).natAbs ≤ b)
        else
          let one : Int := 2 ^ (200 - e).toNat
          decide ((v * m - if n then -one else one).natAbs ≤ b * m)
      | 1 =>
        let d := 2 ^ (400 - e).toNat
        decide (0 ≤ v ∧ (v ≤ b ∨ (v - b).natAbs ^ 2 * m ≤ d) ∧ d ≤ (v + b).natAbs ^ 2 * m)
      | _ => decide ((v - x).natAbs * 2 ^ 32 ≤ b * (2 ^ 32 + 1))
  | _, _ => false

/-- The part's fixed function at an ordinary input: a free function of Config (R163), kept within the bound (log entry 6). -/
def approxFree (op a : Nat) (n : Bool) (m : Nat) (e : Int) : Nat :=
  let free := (Config.approx op (BitVec.ofNat 32 a)).toNat
  if approxWithin op a free then free
  else if (op = 4 ∨ op = 5) ∧ a % 2 ^ 31 > 0x40490FDA then 0
  else
    let x := approxTarget op n m e
    fp32.encode 0 0 (decide (x < 0)) x.natAbs (-200)

/-- The approximate functions (R519): the exact function's value at the special inputs, elsewhere the part's fixed function. -/
def fapprox (op a : Nat) : Nat :=
  match op, fval a with
  | _, .nan => fp32.nan
  | 0, .inf n => fp32.sign n
  | 0, .fin n 0 _ => fp32.infCode n
  | 1, .inf n => if n then fp32.nan else 0
  | 1, .fin n 0 _ => fp32.infCode n
  | 1, .fin n m e => if n then fp32.nan else approxFree 1 a n m e
  | 2, .inf n => if n then 0 else fp32.infCode false
  | 3, .inf n => if n then fp32.nan else fp32.infCode false
  | 3, .fin _ 0 _ => fp32.infCode true
  | 3, .fin n m e => if n then fp32.nan else approxFree 3 a n m e
  | 4, .inf _ => fp32.nan
  | 5, .inf _ => fp32.nan
  | 6, .inf n => fp32.sign n + 0x3F800000
  | k, .fin n m e => approxFree k a n m e
  | _, _ => fp32.nan

/-- 32 steps of a thread's generator (R166). -/
def lfsrSteps : Nat → Nat → Nat
  | 0, x => x
  | n + 1, x => lfsrSteps n ((x / 2) ^^^ (if x % 2 = 1 then 0x80200003 else 0))
def lfsr32 (x : Nat) : Nat := lfsrSteps 32 x

/-- The seed of thread t (R165). -/
def rngSeed (seed t : Nat) : Nat :=
  let x := (seed % two32) ^^^ (t * 0x9E3779B9 % two32)
  if x = 0 then 0x9E3779B9 else x

/-- CVT.TO (R164, R520). -/
def cvtTo (ty rm r a : Nat) : Nat :=
  match ty with
  | 8 => twos 32 (sgn 8 (intOfVal 8 rm r (fval a)))
  | 9 => intOfVal 32 rm r (fval a)
  | t => (fmtOf t).ofVal rm r (fval a)

/-- CVT.FROM (R520). -/
def cvtFrom (ty rm r a : Nat) : Nat :=
  let int := fun (n : Nat) => fp32.encode rm r (decide (sgn n a < 0)) (sgn n a).natAbs 0
  match ty with
  | 8 => int 8
  | 9 => int 32
  | t => fp32.ofVal 0 0 ((fmtOf t).decode a)

/-- One atomic operation (R117) on an element of n bits. -/
def aop (op n old b c : Nat) : Nat :=
  match op with
  | 0 => iadd n old b
  | 1 => iminS n old b
  | 2 => imaxS n old b
  | 3 => min old b
  | 4 => max old b
  | 5 => old &&& b
  | 6 => old ||| b
  | 7 => old ^^^ b
  | 8 => b
  | 9 => if old = c then b else old
  | _ => fadd 0 old b

end Sys2Proof.Machine
end

