-- ==== Sys2Proof/Machine/Tab.lean ====
section
/-!
DEFINITION. Sparse tables: the state of a numbered set of units (R11), most of them at their reset value. A table is a
list of (number, value) pairs in ONE canonical form: numbers strictly rising, and no entry equal to the value an
unlisted number has. Equal tables are therefore equal data.
-/

namespace Sys2Proof.Machine

/-- A sparse table of values of type `α`, keyed by unit number. -/
abbrev Tab (α : Type) := List (Nat × α)

/-- The value of number `k`; an unlisted number has the default `d`. -/
def Tab.get {α : Type} (d : α) : Tab α → Nat → α
  | [], _ => d
  | (i, v) :: t, k => if k = i then v else if k < i then d else Tab.get d t k

/-- Gives number `k` the value `v` (never the default) in a rising list. -/
def Tab.put {α : Type} : Tab α → Nat → α → Tab α
  | [], k, v => [(k, v)]
  | (i, a) :: t, k, v =>
    if k < i then (k, v) :: (i, a) :: t
    else if k = i then (k, v) :: t
    else (i, a) :: Tab.put t k v

/-- Takes number `k` out of a rising list; what follows it there lies above it. -/
def Tab.drop {α : Type} : Tab α → Nat → Tab α
  | [], _ => []
  | (i, a) :: t, k => if k = i then t.filter (fun e => decide (k < e.1)) else if k < i then (i, a) :: t else (i, a) :: Tab.drop t k

/-- Gives number `k` the value `v`, keeping the canonical form. -/
def Tab.set {α : Type} [DecidableEq α] (d : α) (t : Tab α) (k : Nat) (v : α) : Tab α :=
  if v = d then Tab.drop t k else Tab.put t k v

/-- Changes the value of number `k`. -/
def Tab.upd {α : Type} [DecidableEq α] (d : α) (t : Tab α) (k : Nat) (f : α → α) : Tab α :=
  Tab.set d t k (f (Tab.get d t k))

/-- The entries that a reader of numbers reaches: each above all before it. Of a canonical table it is the whole. -/
def Tab.rising {α : Type} : Nat → Tab α → Tab α
  | _, [] => []
  | b, (i, a) :: t => if i < b then Tab.rising b t else (i, a) :: Tab.rising (i + 1) t

/-- Takes every number for which `p` holds back to the default. -/
def Tab.clear {α : Type} (p : Nat → Bool) (t : Tab α) : Tab α :=
  (Tab.rising 0 t).filter fun e => !p e.1

/-- Changes every listed value. -/
def Tab.adjust {α : Type} [DecidableEq α] (d : α) (f : Nat → α → α) (t : Tab α) : Tab α :=
  ((Tab.rising 0 t).map fun e => (e.1, f e.1 e.2)).filter fun e => decide (e.2 ≠ d)

/-- The listed numbers. -/
def Tab.keys {α : Type} (t : Tab α) : List Nat := t.map (·.1)

/-- Every listed number of a canonical table lies above `b`, and the numbers rise strictly. -/
def Tab.sortedFrom {α : Type} : Nat → Tab α → Bool
  | _, [] => true
  | b, (i, _) :: t => decide (b ≤ i) && Tab.sortedFrom (i + 1) t

/-- The canonical form of a table whose unlisted numbers have the value `d`. -/
def Tab.wf {α : Type} [DecidableEq α] (d : α) (t : Tab α) : Bool :=
  Tab.sortedFrom 0 t && t.all fun e => decide (e.2 ≠ d)

end Sys2Proof.Machine
end

