-- ==== Sys2Proof/Machine/StateGang.lean ====
section
/-!
DEFINITION. The state of cores and gangs (R10, R60 to R95), their store buffers (R180) and their matrix arrays (R138).
Every structure's defaults are its values at release; an unlisted unit of a table holds them.
-/

namespace Sys2Proof.Machine

/-- Where an access is performed, once its address is translated (R176): workspace, a device physical address, a
partition's L2 scratch, a host bus address behind a port (RLX of the leaf), an adit window's far side, or a
register block of BAR0 (false) or BAR4 (true). `lost`: declared lost or dropped (R193). -/
inductive Loc where
  | ws (core a : Nat)
  | dev (a : Nat)
  | l2s (p a : Nat)
  | host (port a : Nat) (rlx : Bool)
  | adit (p w dev far off : Nat)
  | ctrl (bar4 : Bool) (off : Nat)
  | lost
  deriving DecidableEq, Repr

/-- Why a lane waits (R69, R70, R120, R125, R126). -/
inductive Wait where
  | none
  | gangBar
  | named (id : Nat)
  | sem
  | cvPush (port : Nat)
  | cvPop (port : Nat)
  deriving DecidableEq, Repr

/-- A recorded trap (R81, R82, R521): cause code, the path's program counter and lanes, 16 bytes of extra content. -/
structure Trap where
  code : Nat
  pc : Nat
  mask : Nat
  extra : List Byte
  deriving DecidableEq, Repr

/-- One lane's part of an outstanding load or atomic (R112, R115, R182). `poison` carries the source address. -/
structure LaneLoad where
  lane : Nat
  addr : Nat
  loc : Loc
  ready : Bool
  data : Nat
  poison : Option Nat
  deriving DecidableEq, Repr

/-- What an outstanding load instruction is: LD, ATOM, LD.ACQUIRE, or SEM.ACQUIRE waiting for its word (R112 to R120). -/
inductive LoadKind where
  | plain
  | atom
  | acquire
  | sem
  deriving DecidableEq, Repr

/-- An outstanding load instruction of a gang, in issue order (R182): its number, destination, bytes, sign extension, lanes,
and the epoch stamp it holds (R252; none for untranslated spaces). For SEM.ACQUIRE `vals` holds each lane's value. -/
structure PendLoad where
  id : Nat
  kind : LoadKind
  dst : Nat
  size : Nat
  sx : Bool
  lanes : List LaneLoad
  vals : List Nat
  stamp : Option Nat
  devScope : Bool
  deriving DecidableEq, Repr

/-- A conveyor port binding of a launch (R124, R295). -/
structure CvBind where
  conveyor : Nat
  pop : Bool
  width : Nat
  deriving DecidableEq, Repr

/-- What a launch gives its gangs (R60, R61, R275, R295): the command and its tally, registers, slot, workspace window, split,
stream, stage, bindings, and the scratch size. -/
structure Kernel where
  part : Nat := 0
  ring : Nat := 0
  cmd : Nat := 0
  tally : Nat := 0
  vregs : Nat := 0
  slot : Nat := 0
  wsBase : Nat := 0
  wsSize : Nat := 0
  split : Nat := 0
  stream : Nat := 0
  stage : Nat := 0
  binds : Tab (Option CvBind) := []
  l2sSize : Nat := 0
  deriving DecidableEq, Repr

/-- The debugger's state of a gang (R89): FREE is a gang that is not live. -/
inductive GangMode where
  | running
  | halting
  | halted
  | stepping
  deriving DecidableEq, Repr

/-- One lane of a gang: program counter, return stack (newest first), wait, wait count (R66), stochastic state (R165). -/
structure Lane where
  pc : Nat := 0
  stack : List Nat := []
  wait : Wait := .none
  age : Nat := 0
  rng : Nat := 0
  deriving DecidableEq, Repr

/-- A gang slot (R60 to R67, R80, R96). `regs` is keyed by register × 32 + lane; `marks` holds the poison source
address plus 1 of a poisoned register. `issuedAt`: the place of its last issue among its sub-core's, 0 before the first (R63). `mWait`:
the path that waits at a matrix instruction, for which the whole gang is not ready (R133 to R135). `holdLd`, `holdSt`: lanes with an
incomplete fence (R121). `lost`: lanes with a lost store since their last fence (R193). `stepPath`: the
lanes for which a step has still to issue (R92); `dbgBy`: the function whose HALT or step is in progress (R89, R95). -/
structure Gang where
  live : Bool := false
  k : Kernel := {}
  regs : Tab Word := []
  marks : Tab Nat := []
  uregs : Tab Word := []
  preds : Tab Word := []
  mdesc : Tab DWord := []
  lanes : Tab Lane := []
  exited : Nat := 0
  mWait : Nat := 0
  holdLd : Nat := 0
  holdSt : Nat := 0
  lost : Nat := 0
  storeErr : Bool := false
  last : Nat := 0
  consec : Nat := 0
  switch : Bool := true
  issuedAt : Nat := 0
  pend : List PendLoad := []
  mode : GangMode := .running
  stepPath : Nat := 0
  dbgBy : Nat := 0
  cause : Nat := 0
  trap : Option Trap := none
  firstT : Nat := 0
  deriving DecidableEq, Repr

/-- A named barrier of a core (R70): gangs arrived at the open instance, its count, the members with threads left, the
number of members fully exited, each gang's count toward the arrival it is making, and the gangs of instances that have
their count and wait for workspace stores (R71). -/
structure NamedBar where
  count : Option Nat := none
  arrived : List Nat := []
  members : List Nat := []
  gone : Nat := 0
  counts : Tab Nat := []
  filled : List (List Nat) := []
  deriving DecidableEq, Repr

/-- A line in a core's L1 (R10, R78): its number (physical address / 128), its bytes, and masks of the 32-byte sectors that it holds and
of those fetched poisoned. -/
structure L1Line where
  line : Nat
  data : List Byte
  valid : Nat
  bad : Nat
  deriving DecidableEq, Repr

/-- A stationary tile as loaded (R138): format code and element codes, row × 32 + column. -/
structure Tile where
  fmt : Nat := 0
  elems : Tab Nat := []
  deriving DecidableEq, Repr

/-- A run not yet complete (R134): the descriptor's fields taken at issue, its tile (R157), whether it carries a new tag, and
the cycle in which its first vector enters row 0 (R152). -/
structure MRun where
  gang : Nat
  part : Nat
  tally : Nat
  mode : Nat
  fmtS : Nat
  fmtW : Nat
  rows : Nat
  cols : Nat
  acc : Bool
  count : Nat
  waddr : Nat
  saddr : Nat
  scale : Nat
  tscale : Word
  tile : Tile
  swaps : Bool
  first : Nat
  deriving DecidableEq, Repr

/-- A matrix array (or quarter) of a core (R138 to R150): the tile of the next run, the shadow tile, the cycle in which the shadow
begins to swap in for a run that has claimed it (R148), the pass tag, the accumulators (slot × 32 + column) with their poison marks,
the runs not yet complete, oldest first, and the cycle in which the last vector of the newest run enters row 0 (R152). -/
structure MUnit where
  active : Tile := {}
  shadow : Option Tile := none
  claimed : Option Nat := none
  tag : Bool := false
  acc : Tab Word := []
  accPoison : Tab Bool := []
  runs : List MRun := []
  lastIn : Nat := 0
  deriving DecidableEq, Repr

/-- A line of a core's instruction cache (R10): its number, its bytes, and whether it was fetched poisoned (R108). -/
structure ICLine where
  line : Nat
  data : List Byte
  bad : Bool
  deriving DecidableEq, Repr

/-- A core (R10): the kernel it runs, its named barriers, L1, instruction cache and arrays (unit array × 4 + quarter). -/
structure Core where
  kern : Option (Nat × Nat) := none
  bars : Tab NamedBar := []
  l1 : List L1Line := []
  icache : List ICLine := []
  units : Tab MUnit := []
  retired : Nat := 0
  deriving DecidableEq, Repr

/-- What a store-buffer entry's write is (R113, R119, R120). -/
inductive StKind where
  | plain
  | release
  | semRelease
  deriving DecidableEq, Repr

/-- An entry of a sub-core's store buffer (R180): its thread, the address as issued, where it goes, its bytes, its stamp
(R252), and the tag under which an adit store waits for its answer (R369). -/
structure StEntry where
  gang : Nat
  lane : Nat
  addr : Nat
  loc : Loc
  size : Nat
  data : Nat
  kind : StKind
  stamp : Option Nat
  tag : Option Nat
  deriving DecidableEq, Repr

end Sys2Proof.Machine
end

