-- ==== Sys2Proof/Machine/StateMem.lean ====
section
/-!
DEFINITION. The state of the memory system (R198 to R238), of the coherent agents (R259) and of requests outstanding
outside the device (R194, R368, R406).
-/

namespace Sys2Proof.Machine

/-- The bytes of a space: rising addresses, and no entry equal to 0, which an unlisted byte reads as (log entry 5). -/
abbrev Memory := List Host.Cell

/-- The state of an HBM channel (R236). -/
inductive ChanState where
  | absent
  | training
  | live
  | held
  | dead
  deriving DecidableEq, Repr

/-- An operation due on a channel (R223). -/
inductive ChanOp where
  | none
  | retrain
  | repair
  | urgent
  deriving DecidableEq, Repr

/-- A channel (R198 to R225, R236). `syms` lists the corrections of the last second: lane (pseudo-channel × 36 + symbol) and cycle; `failed` holds the lanes that await repair, `bare` those that failed with
no spare left; `refs` counts refreshes per pseudo-channel; `due` is a retrain that is due. -/
structure Chan where
  state : ChanState := .training
  ce : Nat := 0
  ue : Nat := 0
  pages : Nat := 0
  spares : List Nat := [0, 0]
  failed : List Nat := []
  bare : List Nat := []
  refs : List Nat := [0, 0]
  due : ChanOp := .none
  hold : ChanOp := .none
  syms : List (Nat × Nat) := []
  owed : Nat := 0
  next : Nat := 0
  scrubAt : Nat := 0
  passes : Nat := 0
  deriving DecidableEq, Repr

/-- The state of a region (R221, R237). -/
inductive RegState where
  | absent
  | empty
  | loading
  | guarded
  | exposed
  | unguarded
  | condemned
  deriving DecidableEq, Repr

/-- A region (R219): state, FIXES, and once loaded the seam that holds it: channels, log₂ stride, and the pages that hold
copy A (channel, page), in the order group × N + member (R200, R249). -/
structure Region where
  state : RegState := .absent
  fixes : Nat := 0
  chans : List Nat := []
  stride : Nat := 0
  frames : List (Nat × Nat) := []
  deriving DecidableEq, Repr

/-- An entry of a write-combining buffer (R210): line and byte mask. -/
structure WcEntry where
  line : Nat
  mask : Nat
  deriving DecidableEq, Repr

/-- A way of an L2 set (R209, R226): the line it holds, and the mask of bytes written since it was allocated. -/
structure L2Way where
  line : Option Nat := none
  dirty : Nat := 0
  partialFill : Bool := false
  deriving DecidableEq, Repr

/-- An L2 slice (R226, R227): its generator, its ways (set × 16 + way) and its write-combining buffer, oldest first. -/
structure Slice where
  lfsr : Nat := 0
  ways : Tab L2Way := []
  wc : List WcEntry := []
  deriving DecidableEq, Repr

/-- A stride detector (R232). -/
structure Detector where
  part : Nat := 0
  last : Nat := 0
  stride : Int := 0
  conf : Nat := 0
  deriving DecidableEq, Repr

/-- A line's directory entry (R260): the sharers and the owner. A recall that is answered is part of the access that causes it. -/
structure DirEntry where
  sharers : List Nat := []
  owner : Option Nat := none
  deriving DecidableEq, Repr

/-- What an answer from outside completes (R194, R368, R406): a lane of a gang's load with its number, a run of a copy's
bytes (command, descriptor, places it goes to, first address there, bytes, epoch stamp; no place: the write of that many elements is answered), the first bytes of a
copy's element whose source crosses lines, a store entry of a sub-core, the XPORT wait of a command, the word that a
COND or LOOP tests, or bytes of a reduction job; `gone`: nothing any more, though the request holds its tag. -/
inductive Waiter where
  | load (g id lane : Nat)
  | copy (p k idx : Nat) (dst : List Loc) (addr n stamp : Nat)
  | head (p k idx n stamp : Nat)
  | store (b : Nat)
  | xport (p k : Nat)
  | word (p k stamp : Nat)
  | red (p : Nat)
  | gone
  deriving DecidableEq, Repr

/-- The partition and epoch stamp that an awaited answer holds (R252), where it holds one of its own. -/
def Waiter.stamp : Waiter → Option (Nat × Nat)
  | .copy p _ _ _ _ _ t | .head p _ _ _ t | .word p _ t => some (p, t)
  | .load _ _ _ | .store _ | .xport _ _ | .red _ | .gone => none

/-- What a port sends to its host (R405): writes and reads of a function of the port (R244), reads under a tag, interrupt messages,
completions, and errors of a function reported through AER (R395, R408). -/
inductive HostTx where
  | write (fn addr : Nat) (data : List Byte) (relaxed : Bool)
  | read (fn addr len tag : Nat)
  | msix (q v : Nat)
  | completion (data : List Byte) (poisoned ok : Bool)
  | unsupported (fn : Nat)
  | retry
  deriving DecidableEq, Repr

/-- A cached translation (R246, R247): the partition and slot, the page's base and size (log₂), and its leaf word. -/
structure TlbEntry where
  part : Nat
  slot : Nat
  base : Nat
  bits : Nat
  leaf : Nat
  deriving DecidableEq, Repr

/-- Memory-system state: contents, poison (the poisoned codewords of a 128 B line, an 8 B element of workspace and scratch), channels,
regions, L2, detectors, directory, and the MEM counters of R235. `cover`: the bytes of a poisoned line written since it was
poisoned; `found`: lines found uncorrectable and not yet rewritten (R217); `flips`: the disturbed symbols that lie in the arrays. `tlbs`: the TLBs of
cores (0 to 575), copy engines (576 to 639), command processors (640 to 655) and the shared ones of the tiers (656 to 659), `frames`: the
frame caches of the tiers, keyed by partition, seam and index (R246); `leaving` the pages that a frame map has given up, each with the
epochs (partition, epoch) that must pass before it is free (R253, R275). -/
structure Mem where
  dev : Memory := []
  poison : Tab Nat := []
  cover : Tab Nat := []
  found : Tab Bool := []
  flips : List Flip := []
  ws : Memory := []
  wsPoison : Tab Bool := []
  l2s : Memory := []
  l2sPoison : Tab Bool := []
  chans : Tab Chan := []
  regions : Tab Region := []
  slices : Tab Slice := []
  dets : Tab Detector := []
  dir : Tab DirEntry := []
  tlbs : Tab (List TlbEntry) := []
  frames : Tab (List (Nat × Nat × Nat)) := []
  used : Tab Bool := []
  leaving : List (List (Nat × Nat) × Nat × Nat) := []
  ceTotal : Nat := 0
  ueTotal : Nat := 0
  guardFixes : Nat := 0
  scrubPass : Nat := 0
  trained : Bool := false
  deriving DecidableEq, Repr

end Sys2Proof.Machine
end

