-- ==== Sys2Proof/Machine/StatePart.lean ====
section
/-!
DEFINITION. The state of one partition: rings and commands (R284 to R320), translation (R239 to R258), placement (R263 to
R283), fault ring and hold (R476 to R483), energy ring and tallies (R445 to R454), conveyors (R124, R266, R370).
-/

namespace Sys2Proof.Machine

/-- The COMMIT register of a commit group (R57): COUNT, STATUS; and its pending set, when one waits (R55). `α` is the
type of the group's set. -/
structure Group (α : Type) where
  live : α
  shadow : α
  pend : Option α := none
  count : Nat := 0
  status : Nat := 0
  deriving DecidableEq, Repr

/-- The members of a ring, sump, fault-ring or energy-ring group (R59): BASE as its register holds it, and SIZE. -/
structure BaseSize where
  base : Nat := 0
  size : Nat := 0
  deriving DecidableEq, Repr

/-- The members of an adit group (R59, R258). -/
structure AditSet where
  base : Nat := 0
  limit : Nat := 0
  target : Nat := 0
  deriving DecidableEq, Repr

/-- The members of a seam group (R280, R282): PLC_SEAM_CHANNELS, PLC_SEAM_STRIDE, and the mask read at the commit. -/
structure SeamSet where
  chans : Nat := 0
  stride : Nat := 0
  mask : List Nat := []
  deriving DecidableEq, Repr

/-- A latched error of a ring (R294, R319): SEQUENCE, OPCODE, CODE of the first, the COUNT, and its address and info. -/
structure RingErr where
  sq : Nat := 0
  op : Nat := 0
  code : Nat := 0
  count : Nat := 0
  addr : Nat := 0
  info : Nat := 0
  deriving DecidableEq, Repr

/-- What a ring is inside (R305, R306), innermost first: a LOOP (its command, the place of its body, commands left in
this iteration, iterations done) or a CALL buffer (its command, address and slots, slots already passed). -/
inductive Frame where
  | loop (k : Nat) (start at_ left iters : Nat)
  | call (k : Nat) (va slot slots at_ : Nat)
  deriving DecidableEq, Repr

/-- A ring (R284 to R320). `next` is the free-running slot of the next command to start; `past`
the slot that follows the commands which started behind a wait given back by a drain (R51); `bells` holds (TAIL, Record
Time) of doorbells for AGE; `ports` the ports that carried its posted writes since an XPORT (R406); `started` the commands started and not retired, oldest first. -/
structure Ring where
  grp : Group BaseSize := { live := {}, shadow := {} }
  enable : Bool := false
  spaceIrq : Bool := false
  wasFull : Bool := false
  guilty : Bool := false
  head : Nat := 0
  tail : Nat := 0
  next : Nat := 0
  skip : Nat := 0
  past : Option Nat := none
  frames : List Frame := []
  started : List Nat := []
  bells : List (Nat × Nat) := []
  retired : Nat := 0
  instr : Nat := 0
  guiltySeq : Nat := 0
  err : RingErr := {}
  resumed : Bool := false
  snapRetired : Nat := 0
  snapInstr : Nat := 0
  ports : Nat := 0
  deriving DecidableEq, Repr

/-- What a started command waits for before it may retire (R289, R301 to R311, R253, R384). -/
inductive CmdWait where
  | done
  | earlier
  | gangs
  | copies
  | sem (loc : Nat) (value : Nat)
  | time (t : Nat)
  | gate (left : Nat)
  | loopEnd
  | callEnd
  | epoch (e : Nat)
  | nodes
  | sumpSpace
  | tally
  | hold
  | skip
  | word
  | fit
  | again
  | red (i : Nat)
  | xport
  deriving DecidableEq, Repr

/-- A copy descriptor with its progress (R298): its index and bytes, the next element, and the engine that stalled; `head`
holds the first bytes of an 8-byte destination element whose source lies in two lines or places, `bad` whether they are
poisoned, `asked` whether some of them are awaited (R191). -/
structure CopyJob where
  idx : Nat
  desc : List Byte
  pos : Nat := 0
  engine : Option Nat := none
  head : List Byte := []
  bad : Bool := false
  asked : Bool := false
  deriving DecidableEq, Repr

/-- A started command (R289): the ring, its slots' place and number, its bytes, what it waits for, its error; for a
LAUNCH the argument block (u at 0, m at 256), the gangs to start and started, the cores it keeps (R275), for copies the descriptors left, elements awaited and those landed here but still to
be written to an adit or a register (descriptor, place, address, bytes, epoch stamp), the code and address of the lowest failing descriptor
in `code`, `info` and `addr`, for a GRAPH_LAUNCH its nodes
not yet retired and started; `parent` is the GRAPH_LAUNCH of a node and `node` its index; `xports` the XPORT reads
awaited; `stamp` the Record Time at which a COMPLETE's release ended (R310). -/
structure Cmd where
  ring : Nat := 0
  bytes : List Byte := []
  slots : Nat := 0
  inRing : Bool := true
  parent : Option Nat := none
  node : Nat := 0
  wait : CmdWait := .done
  code : Nat := 0
  addr : Nat := 0
  info : Nat := 0
  gangs : Nat := 0
  startedGangs : Nat := 0
  liveGangs : Nat := 0
  cores : Nat := 0
  kern : Kernel := {}
  args : List Byte := []
  copies : List CopyJob := []
  awaited : Nat := 0
  landed : List (Nat × Loc × Nat × List Byte × Nat) := []
  lostAt : Option Nat := none
  lostN : Nat := 0
  graph : Nat := 0
  version : Nat := 0
  nodesLeft : List Nat := []
  nodesDue : List Nat := []
  xports : Nat := 0
  stamp : Nat := 0
  deriving DecidableEq, Repr

/-- A stored version of a graph (R312, R313): the number of the command that stored it, its version and its nodes' 256-byte images.
Versions of a graph that was deleted and stored again may bear the same number (R314). -/
structure GraphVer where
  id : Nat := 0
  version : Nat
  nodes : List (List Byte)
  deriving DecidableEq, Repr

/-- A graph: the current version (none once deleted), and the versions still stored. -/
structure Graph where
  current : Option Nat := none
  vers : List GraphVer := []
  deriving DecidableEq, Repr

/-- A seam's definition (R200, R249): sorted channels, log₂ stride, and the frame map (g × N + j, holding PAGE + 1). -/
structure SeamDef where
  chans : List Nat := []
  stride : Nat := 0
  frames : Tab Nat := []
  deriving DecidableEq, Repr

/-- A seam (R200, R249, R269): its pool, the region it maps, the 64 KiB pages of its offset space in use, and its commit group. Its
forced moves (R276): `goal` is the definition it moves to and the pages already passed (R280); `deal` the seams that replace it after
a channel's death, and `plan` the pages still to be dealt out, each with its new seam (R278). `hold`: the move has started to hold
commands; `active`: it moves groups; `last` the epochs (partition, epoch) that its end awaits; `used0` its pages in use when it began. -/
structure Seam where
  d : SeamDef := {}
  pool : Nat := 0
  region : Option Nat := none
  used : Tab Bool := []
  grp : Group SeamSet := { live := {}, shadow := {} }
  goal : Option (SeamDef × Nat) := none
  deal : List Nat := []
  plan : List (Nat × Nat) := []
  hold : Bool := false
  active : Bool := false
  last : List (Nat × Nat) := []
  used0 : Nat := 0
  replaced : Bool := false
  changes : Nat := 0
  changedAt : Nat := 0
  deriving DecidableEq, Repr

/-- A change that Crew has proposed and the engine weighs (R272, R273): a new seam, a replica more, a replica less. -/
inductive Change where
  | seam (chans : List Nat) (stride : Nat)
  | add (chans : List Nat) (stride : Nat) (scratch : Bool)
  | drop (i : Nat)
  deriving DecidableEq, Repr

/-- A replica of a tensor (R272): in a second seam's pages (seam, page), or in the scratch grant. -/
structure Replica where
  scratch : Bool
  pages : List (Nat × Nat)
  deriving DecidableEq, Repr

/-- What an unforced move makes (R273): a new seam for the tensor, a replica in a second seam, or one in the scratch grant. -/
inductive MoveKind where
  | reseam
  | replica
  | scratch (a : Nat)
  deriving DecidableEq, Repr

/-- An unforced move of a tensor (R275): the seams it goes to, the virtual pages already passed, whether it runs in this window, the
Record Time at which the group now being copied began, the pages of a replica built so far, and the epoch of its last group. -/
structure Move where
  kind : MoveKind := .reseam
  dest : List Nat := []
  done : Nat := 0
  active : Bool := false
  at_ : Nat := 0
  built : List (Nat × Nat) := []
  last : Option Nat := none
  deriving DecidableEq, Repr

/-- A declared tensor (R264). Its pages' leaves lie in the partition's table. `gains` counts evaluations in a row at 10% or
more (R273), `quiet` the cadence periods for which it stays unchanged; `via` the seams whose forced moves it is part of, `was` the
pages it had when its move began (R279). -/
structure Tensor where
  slot : Nat := 0
  pool : Nat := 0
  pattern : Nat := 0
  flags : Nat := 0
  va : Nat := 0
  size : Nat := 0
  lifetime : Nat := 0
  ring : Nat := 0
  format : Nat := 0
  stage : Nat := 0xFF
  sealed : Bool := false
  pinned : Bool := false
  slots : List Nat := []
  pages : List (Nat × Nat) := []
  replicas : List Replica := []
  changes : Nat := 0
  changedAt : Nat := 0
  replaced : Bool := false
  gains : Nat := 0
  prop : Option Change := none
  decided : Bool := false
  quiet : Nat := 0
  move : Option Move := none
  via : List Nat := []
  was : List (Nat × Nat) := []
  releasing : Bool := false
  deriving DecidableEq, Repr

/-- A declared stage (R265) and its district, a mask of cores (R271). -/
structure Stage where
  declared : Bool := false
  min : Nat := 0
  max : Nat := 0
  work : Nat := 0
  pinned : Bool := false
  size : Nat := 0
  district : Nat := 0
  changes : Nat := 0
  changedAt : Nat := 0
  gains : Nat := 0
  prop : Option Nat := none
  decided : Bool := false
  quiet : Nat := 0
  deriving DecidableEq, Repr

/-- A path waiting at a conveyor port (R125, R126): gang, the path's lanes, the active ones of them, the data register. -/
structure CvWait where
  gang : Nat
  path : Nat
  lanes : Nat
  reg : Nat
  pd : Option Nat
  deriving DecidableEq, Repr

/-- A conveyor end (R266, R370). `buf` holds the entries present, oldest first, in sequence order; for a producer of a
remote conveyor, the entries not yet covered by RECEIVED, from sequence `acked`. `ahead` holds entries received beyond a
gap. `via` the seams whose forced moves its buffer is part of, `base0` its address when they began (R279). -/
structure Conveyor where
  declared : Bool := false
  producer : Nat := 0
  consumer : Nat := 0
  width : Nat := 0
  depth : Nat := 0
  dev : Nat := 0
  rconv : Nat := 0
  pool : Nat := 0
  inScratch : Bool := false
  base : Nat := 0
  pages : List (Nat × Nat) := []
  buf : List (BitVec 128) := []
  ahead : Tab (Option (BitVec 128)) := []
  closed : Bool := false
  far : Bool := false
  dead : Bool := false
  sent : Nat := 0
  received : Nat := 0
  freed : Nat := 0
  sentRecv : Nat := 0
  sentFreed : Nat := 0
  told : Bool := false
  credit : Bool := false
  pushers : List CvWait := []
  poppers : List CvWait := []
  binders : Nat := 0
  via : List Nat := []
  base0 : Nat := 0
  replaced : Bool := false
  changes : Nat := 0
  changedAt : Nat := 0
  deriving DecidableEq, Repr

/-- A fault record's slots, 64 bytes each (R479); `kind` is S, E or I of R480 as 0, 1, 2. -/
structure FRec where
  bytes : List Byte
  kind : Nat
  deriving DecidableEq, Repr

/-- A fault ring's bookkeeping (R476 to R483): HEAD, TAIL, next SEQ, the hold, the losses of FLT_LOST since it was read and
since the last OVERFLOW. -/
structure FltRing where
  head : Nat := 0
  tail : Nat := 0
  sq : Nat := 0
  hold : List FRec := []
  fault : Bool := false
  essential : Nat := 0
  info : Nat := 0
  firstClass : Nat := 0
  lastClass : Nat := 0
  firstTime : Nat := 0
  lastTime : Nat := 0
  ovEssential : Nat := 0
  ovInfo : Nat := 0
  ovFirstClass : Nat := 0
  ovLastClass : Nat := 0
  ovFirstTime : Nat := 0
  ovLastTime : Nat := 0
  deriving DecidableEq, Repr

/-- An open tally, or a partition's tally 0 and interval (R446, R447): the ring that opened it, T_START, picojoules per
domain of R448, windows, flags (R448), package picojoules, cycles at its start, and the residual-weighted energy. -/
structure Tally where
  opened : Bool := false
  ring : Nat := 0
  start : Nat := 0
  cyc : Nat := 0
  pj : List Nat := [0, 0, 0, 0, 0, 0]
  windows : Nat := 0
  unsync : Bool := false
  recal : Bool := false
  est : Bool := false
  pkg : Nat := 0
  pools : List Nat := [0, 0, 0, 0]
  aborted : Bool := false
  deriving DecidableEq, Repr

/-- An energy record in the hold (R452): the 192 bytes, and the signed record once the Deputy has signed it. -/
structure ERec where
  body : List Byte
  signed : Option (List Byte)
  deriving DecidableEq, Repr

/-- A partition's energy state (R445 to R454). `total` is in picojoules; `carryI` and `carryF` hold the remainders below 1 µJ of
INTERVAL and FINAL records per field (R448), `waiting` the records of TALLY_CLOSE commands that found the hold full (R452). -/
structure Energy where
  ering : Group BaseSize := { live := {}, shadow := {} }
  head : Nat := 0
  tail : Nat := 0
  fault : Bool := false
  hold : List ERec := []
  sq : Nat := 0
  cutsSkipped : Nat := 0
  total : List Nat := [0, 0, 0, 0, 0, 0]
  tallies : Tab Tally := []
  interval : Tally := {}
  carryI : List Nat := [0, 0, 0, 0, 0, 0, 0]
  carryF : List Nat := [0, 0, 0, 0, 0, 0, 0]
  waiting : List (Nat × List Byte) := []
  deriving DecidableEq, Repr

/-- What a partition gives back after the steps of R253: a page of a seam, or bytes of the scratch grant (offset, length). -/
inductive Gone where
  | page (i t : Nat)
  | scratch (a n : Nat)
  deriving DecidableEq, Repr

/-- A partition's placement state (R263 to R283). `regionMaps` lists (slot, va, region), `groupPages` the group that backs
a page (R522), `zeroing` what is freed after an epoch (none while CURRENT may not advance), `oldDistricts` the districts of released
stages with their launches still in flight (R267), `evals` the evaluations made; `grantWas` the MiB of the grant that the
engine uses while a launch of `grantAfter`, begun before the last write, has not retired (R282). -/
structure Placement where
  tensors : Tab Tensor := []
  stages : Tab Stage := []
  seams : Tab Seam := []
  conveyors : Tab Conveyor := []
  moves : Nat := 0
  refusals : Nat := 0
  grant : Nat := 0
  grantWas : Nat := 0
  grantAfter : List Nat := []
  pinnedAll : Bool := false
  regionMaps : List (Nat × Nat × Nat) := []
  groupPages : Tab Nat := []
  zeroing : List (Option Nat × Gone) := []
  oldDistricts : List (List Nat × Nat) := []
  evals : Nat := 0
  deriving DecidableEq, Repr

/-- One partition. `cmds` is keyed by command number, `nextK` the next number; `table` holds the pool-half leaf words
(R244) keyed slot × 2^39 + virtual page. -/
structure Part where
  rings : Tab Ring := []
  cmds : Tab Cmd := []
  nextK : Nat := 0
  dbBad : Nat := 0
  sump : Group BaseSize := { live := {}, shadow := {} }
  sumpHead : Nat := 0
  sumpTail : Nat := 0
  sumpLost : Nat := 0
  graphs : Tab Graph := []
  as : Tab Nat := []
  table : Tab Nat := []
  epoch : Nat := 0
  adits : Tab (Group AditSet) := []
  inBind : Tab Nat := []
  plc : Placement := {}
  fltGrp : Group BaseSize := { live := {}, shadow := {} }
  flt : FltRing := {}
  lampFrom : Nat := 1
  captures : Nat := 0
  en : Energy := {}
  stale : Nat := 0
  draining : Bool := false
  deriving DecidableEq, Repr

end Sys2Proof.Machine
end

