-- ==== Sys2Proof/Machine/StateDev.lean ====
section
/-!
DEFINITION. The state of the device around the partitions: reset and boot (R456 to R475), functions and host ports (R395 to
R414), Survey (R27 to R59), timebase and cadence (R321 to R341), fabric (R342 to R374), reduction (R375 to R394), Deputy and
flash (R415 to R434), Checkweigher (R435 to R455), faults and Pit Log (R476 to R497), power (R507 to R514), copy engines.
-/

namespace Sys2Proof.Machine

/-- Reset and boot (R456 to R475). `raw` is the strap's converter code, `causeStore` the sequencer's cause store,
`store` its two state copies' health; `prim` is the primary port (R402), `relAt` the cycle of the last release,
`softPending` that of a software reset's request, `tierAt` the cycle at which each tier left reset. -/
structure Rst where
  pwrGood : Bool := true
  sysRstN : Bool := true
  released : Nat := 1
  stage : Nat := 0
  refuge : Nat := 0
  safeOff : Bool := false
  result : Nat := 0
  seqSelf : Nat := 0
  ckwSelf : Nat := 0
  dptSelf : Nat := 0
  cause : Nat := 1
  strapped : Bool := false
  raw : Nat := 0
  attempts : Nat := 0
  prevStage : Nat := 0
  armed : Bool := true
  causeStore : Option (Nat × Nat) := none
  softPending : Option Nat := none
  powering : Bool := false
  shiftReady : Bool := false
  tiersHeld : Nat := 0
  tripped : Bool := false
  t0 : Nat := 0
  relAt : Nat := 0
  extest : Bool := false
  sbOut : Bool := false
  prim : Nat := 0
  tierAt : List Nat := [0, 0, 0, 0]
  deriving DecidableEq, Repr

/-- A function's copy of the debug registers (R85 to R90). -/
structure FnDbg where
  gangSel : Nat := 0
  regSel : Nat := 0
  regData : Nat := 0
  result : Nat := 0
  deriving DecidableEq, Repr

/-- A function's Lamp Check window (R492, R493). -/
structure FnLamp where
  state : Nat := 0
  code : Nat := 0
  part : Nat := 0
  data : List Byte := []
  deriving DecidableEq, Repr

/-- A function's Deputy mailbox (R427). -/
structure FnMail where
  state : Nat := 0
  code : Nat := 0
  op : Nat := 0
  slot : Nat := 0
  arg : Nat := 0
  len : Nat := 0
  result : Nat := 0
  deriving DecidableEq, Repr

/-- A function's configuration space as the spec gives it effect (R395 to R398, R412), its MSI-X table by 4-byte word
(R403) and pending bits, and its SPDM negotiation (R429). `vf`, `bar2`, `bar2Next` are a physical function's. -/
structure FnCfg where
  memEn : Bool := false
  vfEn : Bool := false
  d3 : Bool := false
  msixEn : Bool := false
  msixMask : Bool := false
  mps : Nat := 128
  mrrs : Nat := 512
  bar2 : Nat := 36
  bar2Next : Nat := 36
  table : Tab Nat := []
  pba : Nat := 0
  spdmVer : Bool := false
  spdmCaps : Bool := false
  spdmAlgs : Bool := false
  doe : List Byte := []
  cpl : List Byte := []
  deriving DecidableEq, Repr

/-- A function (R399: port × 16 + number), JTAG (32) or the Pithead (33). `rdata` is what its last register access
returned; the latches are those of R7, keyed by offset. -/
structure Fn where
  partSel : Option Nat := none
  rdata : Nat := 0
  rdLatch : Tab (Option Nat) := []
  wrLatch : Tab (Option Nat) := []
  dbg : FnDbg := {}
  lamp : FnLamp := {}
  mail : FnMail := {}
  cfg : FnCfg := {}
  deriving DecidableEq, Repr

/-- The domain state of a host port (R413). -/
inductive PortDom where
  | inReset
  | ready
  | lost
  deriving DecidableEq, Repr

/-- A host port (R395 to R414). `badAt` is the cycle since which the port has been LOST or IN_RESET without a break, `hit` tells that
a trigger of R409 has struck since it was READY; `reqs` are the outstanding reads by tag, `asks` those that wait for one (function,
address, bytes; R395); `vfs` and `bar2` are VF_COUNT and BAR2_LOG2 as the port came up with them. -/
structure HostPort where
  present : Bool := false
  dom : PortDom := .inReset
  perst : Bool := true
  rate : Nat := 0
  width : Nat := 0
  flit : Bool := false
  linkUp : Bool := false
  claimed : Bool := false
  badAt : Nat := 0
  hostRid : Nat := 0x00FF0000
  retrains : Nat := 0
  peerRefused : Nat := 0
  bar2Miss : Nat := 0
  downs : Nat := 0
  badVector : Nat := 0
  out : List HostTx := []
  reqs : Tab (Option Waiter) := []
  asks : List (Nat × Nat × Nat × Waiter) := []
  vfs : Nat := 0
  bar2 : Nat := 36
  hit : Bool := false
  deriving DecidableEq, Repr

/-- A Survey image as the device holds it (R27 to R39): serial, BODY_HASH, SIGN_REQUIRED, OWNER_KEY, and its sections,
type and body. -/
structure Survey where
  serial : Nat
  hash : List Byte
  signReq : Bool
  ownerKey : Nat
  secs : List (Nat × List Byte)
  deriving DecidableEq, Repr

/-- SRV_STATUS.STATE (R45). -/
inductive SrvState where
  | idle
  | fetching
  | validating
  | draining
  | waiting
  | applying
  | storing
  | done
  | failed
  deriving DecidableEq, Repr

/-- The Survey machinery (R45 to R54): `op` the operation running, `cand` the validated image with its bytes, `old` the image
applied before an apply in progress, `changed` the partitions that the candidate changes. -/
structure Srv where
  state : SrvState := .idle
  code : Nat := 0
  detail : Nat := 0
  addr : Nat := 0
  len : Nat := 0
  op : Nat := 0
  cand : Option (Survey × List Byte) := none
  applied : Option Survey := none
  old : Option Survey := none
  changed : Nat := 0
  drain : Nat := 0
  behind : Bool := false
  deriving DecidableEq, Repr

/-- A firmware image in flash (R419): whether checks 1 to 4 and 6 of R420 pass, its SVN, its measurement and,
for an image that an update has written, its header and body. -/
structure FwImg where
  ok : Bool := true
  svn : Nat := 0
  meas : List Byte := []
  img : Option (List Byte) := none
  deriving DecidableEq, Repr

/-- A record of the Pit Log, or one waiting in its queue (R484, R485). -/
structure PitRec where
  kind : Nat
  source : Nat
  stage : Nat
  body : List Byte
  time : Nat
  cycles : Nat
  tstatus : Nat
  sq : Nat := 0
  boot : Nat := 0
  deriving DecidableEq, Repr

/-- The flash (R418, R425): images, counters (value, raises left), owner keys (identifier, X then Y), retired pages, Survey
store, boot-attempt record, BOOT, capacity recorded at the previous boot, and the Pit Log's records, oldest first. -/
structure Flash where
  dep0 : FwImg := {}
  dep1 : FwImg := {}
  crew : FwImg := {}
  counters : List (Nat × Nat) := [(0, 65536), (0, 65536), (0, 65536), (0, 65536)]
  keys : List (Nat × List Byte) := []
  retired : List Nat := []
  stored : Option (List Byte) := none
  prev : Option (List Byte) := none
  attempts : Nat := 0
  lastStage : Nat := 0
  boot : Nat := 0
  capPages : Nat := 24064
  capDead : List Nat := []
  pit : List PitRec := []
  pitSeq : Nat := 0
  deriving DecidableEq, Repr

/-- The Deputy and the Crew (R415 to R434). `unlock` is the JTAG partition mask, `crewFails` the cycles of the Crew's
failures, `crewImg` the image part of the Crew memory and `crewMem` its bytes, by address, `running` the function whose mailbox operation runs, `why` the cause of a self-reset while the restart is due. -/
structure Dpt where
  up : Bool := false
  rom : Bool := false
  slot : Nat := 0
  fallback : Bool := false
  svn : Nat := 0
  meas : List Byte := []
  crewSvn : Nat := 0
  crewMeas : List Byte := []
  crewUp : Bool := false
  crewStopped : Bool := false
  crewFails : List Nat := []
  violated : Bool := false
  running : Option Nat := none
  why : Option Nat := none
  unlock : Nat := 0
  unlockCrew : Bool := false
  challenge : Option (List Byte) := none
  nonces : Nat := 0
  dbgHalted : Bool := false
  crewRead : Nat := 0
  crewImg : Option (List Byte) := none
  crewMem : Memory := []
  deriving DecidableEq, Repr

/-- STATE of the timebase (R323). -/
inductive TimState where
  | free
  | acquiring
  | lockedPps
  | lockedFabric
  | holdover
  deriving DecidableEq, Repr

/-- What a port's timing exchange holds (R328): the neighbour's last T_TX, its arrival here, the link delay, the last
offsets, how many filtered ones in a row lay within ±40 ns, and the neighbour's ROOT, CLASS, HOPS and SERVE. -/
structure TimNbr where
  tTx : Nat := 0
  tRx : Nat := 0
  delay : Int := 0
  offsets : List Int := []
  good : Nat := 0
  root : Nat := 0
  cls : Nat := 3
  hops : Nat := 15
  serve : Bool := false
  deriving DecidableEq, Repr

/-- A cadence set (R331, R332): period in µs, COUNT and the slots' values. -/
structure CadSet where
  period : Nat := 0
  count : Nat := 0
  slots : Tab Nat := []
  deriving DecidableEq, Repr

/-- The cadence (R331 to R338): the live set, the group's shadows, the pending set (none of none: the cadence is removed),
the start of the current period or, before a live set has begun one, the moment from which it may, the next slot to fire, and
the length of the open window. -/
structure Cadence where
  live : Option CadSet := none
  shadow : CadSet := {}
  pend : Option (Option CadSet) := none
  count : Nat := 0
  status : Nat := 0
  periods : Nat := 0
  start : Nat := 0
  begun : Bool := false
  next : Nat := 0
  window : Option Nat := none
  deriving DecidableEq, Repr

/-- The timebase (R321 to R330, R340). `slew` is the error still to be removed in units of 2^-16 ns; `port` the fabric source. -/
structure Tim where
  now : Nat := 0
  frac : Nat := 0
  state : TimState := .free
  expired : Bool := false
  slew : Int := 0
  slewAcc : Nat := 0
  ctrl : Nat := 7
  stage : Nat := 0
  delay : Nat := 0
  rejects : Nat := 0
  err : Nat := 0
  last : Nat := 0
  edgeAt : Option Nat := none
  good : Nat := 0
  steps : Nat := 0
  port : Option Nat := none
  hops : Nat := 0
  root : Nat := 0
  cls : Nat := 3
  snap : Nat := 0
  nbrs : Tab TimNbr := []
  cad : Cadence := {}
  deriving DecidableEq, Repr

/-- A Horash port's state (R344). -/
inductive FabState where
  | disabled
  | detect
  | train
  | discover
  | up
  | hold
  deriving DecidableEq, Repr

/-- A flit in an output port's queues (R348): the input it came by, 32 for the device's own sources, and the ports it may take (R360). -/
structure FabWait where
  input : Nat
  grant : Nat
  flit : Flit
  deriving DecidableEq, Repr

/-- A Horash port (R342 to R352, R373). `out` holds the flits sent, oldest first; `queue` those not yet sent, in their order of arrival;
`spent` the credits of each class that the neighbour has not returned (R347); `lastClass` and `lastIn` whom the output served
last, by class (R348); `sq` the next frame's sequence number and `unacked` the replay buffer (R349); `frames`: frames have come in
since the last read of the port's errors. -/
structure FabPort where
  state : FabState := .disabled
  cause : Nat := 0
  width : Nat := 0
  rtt : Nat := 0
  rate : Nat := 0
  nbrSerial : Nat := 0
  nbrId : Option Nat := none
  nbrPort : Nat := 0
  frames : Bool := false
  replays : Nat := 0
  downs : Nat := 0
  hold : Bool := false
  hellos : Nat := 0
  echo : Nat := 0
  lastTx : Nat := 0
  out : List Flit := []
  queue : List FabWait := []
  spent : Tab Nat := []
  lastClass : Nat := 3
  lastIn : Tab Nat := []
  sq : Nat := 0
  unacked : List (Nat × Flit) := []
  deriving DecidableEq, Repr

/-- The newest LSA of an origin (R353). -/
structure LsaRec where
  serial : Nat
  id : Option Nat
  lead : Bool
  sq : Nat
  ports : List LsaEntry
  deriving DecidableEq, Repr

/-- The fabric (R342 to R374). `table` is the leader's (serial, ID), `asks` its pending requests (serial), `seen` the
flooded messages already handled (type, origin serial, sequence), `tags` the adit requests outstanding (R368),
`tagDev` the device, `tagFlow` the flow and `tagAt` the cycle of each plus 1, and `busy` the blocks with a write or atomic unanswered (flow, block, tag). -/
structure Fab where
  id : Nat := 0
  source : Nat := 0
  isLeader : Bool := false
  leader : Nat := 0
  noRoute : Nat := 0
  ttl : Nat := 0
  badType : Nat := 0
  link : Nat := 0
  ports : Tab FabPort := []
  lsdb : List LsaRec := []
  lsaSeq : Nat := 0
  reqSeq : Nat := 0
  assignSeq : Nat := 0
  routes : Tab Nat := []
  reach : Tab Bool := []
  reachHold : Tab Bool := []
  reachSent : List (Nat × Nat × Nat) := []
  table : List (Nat × Nat) := []
  asks : List Nat := []
  seen : List (Nat × Nat × Nat) := []
  nextTag : Nat := 0
  tags : Tab (Option Waiter) := []
  tagDev : Tab Nat := []
  tagFlow : Tab Nat := []
  tagAt : Tab Nat := []
  busy : List (Nat × Nat × Nat) := []
  deriving DecidableEq, Repr

/-- STATE of a job slot (R393). -/
inductive JobState where
  | free
  | joined
  | armed
  | running
  | deciding
  deriving DecidableEq, Repr

/-- The parameters a RED_STEP gives an attempt (R384). -/
structure StepArgs where
  src : Nat := 0
  dest : Nat := 0
  outcome : Nat := 0
  gscale : Word := 0
  lr : Word := 0
  bc2 : Word := 0
  cmd : Nat := 0
  ring : Nat := 0
  deriving DecidableEq, Repr

/-- A job's attempt: PERIOD, LATE_RANK and CODE of the outcome, the last WHOLE step, sums done by this owner (chunk,
poisoned), parameters received, partials received, and the tail's verdicts (rank, verdict). -/
structure JobRun where
  period : Nat := 0
  late : Nat := 0
  code : Nat := 0
  whole : Option Nat := none
  sums : Tab (Option Bool) := []
  params : Tab Bool := []
  verdicts : Tab Nat := []
  deadline : Bool := false
  deriving DecidableEq, Repr

/-- A joined job (R375 to R394): RED_JOIN's body, the rank table, and the attempt: chunks of this rank's shard summed (with
a poisoned flag), parameter chunks received, chunks already forwarded, verdicts held by the tail, the own deadline. -/
structure Job where
  state : JobState := .free
  part : Nat := 0
  job : Nat := 0
  rank : Nat := 0
  ranks : Nat := 0
  mode : Nat := 0
  rule : Nat := 0
  len : Nat := 0
  slot : Nat := 0
  sfmt : Nat := 0
  pfmt : Nat := 0
  tier : Nat := 0
  table : List Nat := []
  stateVa : Nat := 0
  b1 : Word := 0
  b2 : Word := 0
  eps : Word := 0
  wd : Word := 0
  step : Nat := 0
  args : StepArgs := {}
  at_ : JobRun := {}
  deriving DecidableEq, Repr

/-- The Checkweigher (R435 to R455). `act` holds activity since the window began, keyed ((partition + 1) × 2^40 + tally) ×
16 + counter, or the counter alone for idle; `pkg` the package energy in picojoules, `winAt` and `cutAt` the cycles of the
last window's end and of the last honoured cut, `winRecal` a correction in this window, `gap` the cycles not measured in it,
`prev` and `prevLen` the last window's energy per pool and length. -/
structure Ckw where
  act : Tab Nat := []
  pkg : Nat := 0
  power : Nat := 0
  winAt : Nat := 0
  cutAt : Nat := 0
  estimating : Bool := false
  faulty : List Nat := []
  winRecal : Bool := false
  gap : Nat := 0
  prev : List Nat := [0, 0, 0, 0]
  prevLen : Nat := 0
  deriving DecidableEq, Repr

/-- The device fault ring's records, the Pit Log's queue and windows, and the sideband (R477, R484 to R496). `writes`
holds the cycles of limited Pit Log writes in the last 60 s, `skipped` the records not written, per KIND (R487). -/
structure Flt where
  ring : FltRing := {}
  dring : Tab (List Byte) := []
  queue : List PitRec := []
  writes : List Nat := []
  skipped : Tab Nat := []
  pitSel : Nat := 0
  pitReady : Bool := false
  pitMissing : Bool := false
  pitData : List Byte := []
  sbRsp : List Byte := []
  sbPit : Option (Nat × List Byte) := none
  sbLamp : List Byte := []
  deriving DecidableEq, Repr

/-- Power and temperature (R507 to R514): the shares that envelope (`env`), dies (`thermal`) and stacks (`stackPace`) require and the
share applied, in 64ths; the regulators: failures, attempts that drew no answer, set-points wanted and acknowledged. -/
structure Pwr where
  temps : List Nat := [0, 0, 0, 0]
  stack : Nat := 0
  env : Nat := 0
  thermal : List Nat := [0, 0, 0, 0]
  stackPace : Nat := 0
  share : List Nat := [0, 0, 0, 0]
  miss : Bool := false
  avsFail : Nat := 0
  avsTries : List Nat := [0, 0, 0, 0]
  avsTarget : List Nat := [160, 160, 160, 160]
  amps : Nat := 0
  setp : List Nat := [160, 160, 160, 160]
  deriving DecidableEq, Repr

/-- A copy engine (R251, R299): the command and descriptor it serves, and its stall: virtual address, write access,
permission cause, address space, whether its record still waits for the ring, and the driver's action (1 RETRY, 2 ABORT)
until it is taken. -/
structure Engine where
  busy : Option (Nat × Nat) := none
  stalled : Bool := false
  va : Nat := 0
  write : Bool := false
  perm : Bool := false
  asid : Nat := 0
  recWait : Bool := false
  action : Nat := 0
  deriving DecidableEq, Repr

end Sys2Proof.Machine
end

