-- ==== Sys2Proof/Machine/State.lean ====
section
/-!
DEFINITION. The machine's state, the reasons a command can stop, and the state after reset.
-/

namespace Sys2Proof.Machine

/-- The reasons for a fault. No command of this model faults: an event that is not due changes nothing (log entry 4). -/
inductive Fault where
  /-- Raised by no command (safe: it is never reached). -/
  | unreachable
  deriving DecidableEq, Repr

/-- The reasons for a refusal. -/
inductive Refusal where
  /-- A command that has no meaning yet, by its mnemonic (safe). Raised by exec's arms only. -/
  | notModelled (mnemonic : String)
  deriving DecidableEq, Repr

/-- The whole device. `clk` counts cycles of the arithmetic clock since the part's power came up (R4), `free` the free
values drawn (log entry 2), `uid` the numbers given to outstanding requests; `pending` is the queue of commands, first in first out. -/
structure State where
  clk : Nat := 0
  free : Nat := 0
  uid : Nat := 0
  rst : Rst := {}
  foreignWr : Nat := 0
  fns : Tab Fn := []
  ports : Tab HostPort := []
  binds : Tab Nat := []
  srv : Srv := {}
  flash : Flash := {}
  dpt : Dpt := {}
  parts : Tab Part := []
  cores : Tab Core := []
  gangs : Tab Gang := []
  subs : Tab (List StEntry) := []
  trapStop : Nat := 0
  mem : Mem := {}
  tim : Tim := {}
  fab : Fab := {}
  jobs : Tab Job := []
  ckw : Ckw := {}
  flt : Flt := {}
  pwr : Pwr := {}
  engines : Tab Engine := []
  pending : List Instr := []
  deriving DecidableEq, Repr

/-- The device at t0, D0 released and nothing else (R25, R459, R466): the flash as shipped, every other unit at its values
at release. -/
def State.reset : State := {}

end Sys2Proof.Machine
end

