-- ==== Sys2Proof/Machine/SurveyView.lean ====
section
/-!
DEFINITION. What the applied Survey says (R32 to R39): each field is read from its section's body, where its table places
it; an absent optional section has the meaning R32 gives it.
-/

namespace Sys2Proof.Machine

/-- The body of section `t`, when the image carries it. -/
def Survey.sec (v : Survey) (t : Nat) : Option (List Byte) := (v.secs.find? fun e => e.1 == t).map (·.2)

/-- The body of section `t`; empty when absent. -/
def Survey.body (v : Survey) (t : Nat) : List Byte := (v.sec t).getD []

/-- The Survey of a device with none applied (R48): no partition, no section. -/
def Survey.none : Survey := { serial := 0, hash := [], signReq := false, ownerKey := 0, secs := [] }

/-- The applied Survey. -/
def State.sv (s : State) : Survey := s.srv.applied.getD Survey.none

/-- VALID of partition p (R33). -/
def Survey.valid (v : Survey) (p : Nat) : Bool := p < 16 && u8 (v.body 1) (64 * p) == 1

/-- The owning function q = port × 16 + function of partition p (R33, R399). -/
def Survey.fn (v : Survey) (p : Nat) : Nat := u8 (v.body 1) (64 * p + 1) * 16 + u8 (v.body 1) (64 * p + 2)

/-- The owning port of partition p. -/
def Survey.port (v : Survey) (p : Nat) : Nat := u8 (v.body 1) (64 * p + 1)

/-- Grant bit b of partition p (R33): 0 landing regions, 1 fabric, 2 reduction jobs. -/
def Survey.grant (v : Survey) (p b : Nat) : Bool := bit (u8 (v.body 1) (64 * p + 3)) b

/-- The valid partitions, ascending. -/
def Survey.parts (v : Survey) : List Nat := (List.range 16).filter v.valid

/-- MIN_CORES, MAX_CORES and ELIGIBLE of partition p (R34). -/
def Survey.minCores (v : Survey) (p : Nat) : Nat := u16 (v.body 2) (128 * p)
def Survey.maxCores (v : Survey) (p : Nat) : Nat := u16 (v.body 2) (128 * p + 2)
def Survey.eligible (v : Survey) (p : Nat) : Nat := leAt (v.body 2) (128 * p + 8) 72

/-- A memory pool entry (R35). -/
structure Pool where
  part : Nat
  pool : Nat
  smin : Nat
  smax : Nat
  gib : Nat
  chans : Nat
  deriving DecidableEq, Repr

/-- The pools (R35). -/
def Survey.pools (v : Survey) : List Pool :=
  let b := v.body 3
  (List.range (u64 b 0)).map fun i =>
    let o := 64 + 128 * i
    { part := u8 b o, pool := u8 b (o + 1), smin := u8 b (o + 2), smax := u8 b (o + 3), gib := u32 b (o + 4),
      chans := leAt b (o + 64) 64 }

/-- Pool k of partition p. -/
def Survey.pool (v : Survey) (p k : Nat) : Option Pool := v.pools.find? fun e => e.part == p && e.pool == k

/-- A region entry (R36). -/
structure RegionDef where
  region : Nat
  owner : Nat
  guarded : Bool
  readers : Nat
  size2m : Nat
  deriving DecidableEq, Repr

/-- The guarded regions (R36). -/
def Survey.regions (v : Survey) : List RegionDef :=
  let b := v.body 4
  (List.range (u64 b 0)).map fun i =>
    let o := 64 + 64 * i
    { region := u16 b o, owner := u8 b (o + 2), guarded := bit (u8 b (o + 3)) 0, readers := u16 b (o + 4),
      size2m := u32 b (o + 8) }

/-- Region r. -/
def Survey.region (v : Survey) (r : Nat) : Option RegionDef := v.regions.find? fun e => e.region == r

/-- WAY_MASK of class c (R37); every class uses all 16 ways when the section is absent. -/
def Survey.wayMask (v : Survey) (c : Nat) : Nat := match v.sec 5 with | some b => u16 b (2 * c) | Option.none => 0xFFFF

/-- SCRATCH_WAYS of partition p (R37). -/
def Survey.scratch (v : Survey) (p : Nat) : Nat := match v.sec 5 with | some b => u16 b (64 + 16 * p) | Option.none => 0

/-- The requester class of kind i of partition p (R37): 0 core, 1 copy, 2 command processor, 3 inbound fabric, 4 reduction,
5 BAR2. -/
def Survey.cls (v : Survey) (p i : Nat) : Nat :=
  let m := match v.sec 5 with | some b => u32 b (64 + 16 * p + 2) | Option.none => 0x00543210
  bits m (4 * i + 3) (4 * i)

/-- SHARE and LEVELS of partition p (R38). -/
def Survey.share (v : Survey) (p : Nat) : Nat :=
  match v.sec 6 with | some b => u8 b (64 + 16 * p) | Option.none => 256 / max 1 v.parts.length
def Survey.levels (v : Survey) (p : Nat) : Nat := match v.sec 6 with | some b => u8 b (64 + 16 * p + 1) | Option.none => 0xFF

/-- URGENT (R38). -/
def Survey.urgent (v : Survey) : Nat := u16 (v.body 6) 0

/-- The cadence of section 0x0007 (R332). -/
def Survey.cadence (v : Survey) : Option CadSet := (v.sec 7).map fun b =>
  { period := u32 b 0, count := u16 b 4,
    slots := (List.range (u16 b 4)).foldl (fun t k => Tab.set 0 t k (u64 b (64 + 8 * k))) [] }

/-- Fields of section 0x0008 (R371). -/
def Survey.fabId (v : Survey) : Nat := u16 (v.body 8) 0
def Survey.fabOpen (v : Survey) : Bool := bit (u16 (v.body 8) 0) 15
def Survey.leadOffer (v : Survey) : Bool := bit (u8 (v.body 8) 2) 0
def Survey.fabStatic (v : Survey) : Bool := bit (u8 (v.body 8) 2) 1
def Survey.portEn (v : Survey) : Nat := u32 (v.body 8) 4
def Survey.portGrant (v : Survey) (p : Nat) : Nat := u32 (v.body 8) (64 + 4 * p)
def Survey.route (v : Survey) (d : Nat) : Nat := u32 (v.body 8) (8320 + 4 * d)

/-- Outbound window a (R371): owner, PERM, FIRST_DEV, LAST_DEV; none when unassigned. -/
def Survey.outWin (v : Survey) (a : Nat) : Option (Nat × Nat × Nat × Nat) :=
  match v.sec 8 with
  | Option.none => Option.none
  | some b =>
    let o := 128 + 16 * a
    if u8 b o = 0xFF then Option.none else some (u8 b o, u8 b (o + 1), u16 b (o + 2), u16 b (o + 4))

/-- Inbound window w (R371). -/
structure InWin where
  owner : Nat
  perm : Nat
  size : Nat
  first : Nat
  last : Nat
  deriving DecidableEq, Repr

def Survey.inWin (v : Survey) (w : Nat) : Option InWin :=
  match v.sec 8 with
  | Option.none => Option.none
  | some b =>
    let o := 4224 + 16 * w
    if u8 b o = 0xFF then Option.none
    else some { owner := u8 b o, perm := u8 b (o + 1), size := u32 b (o + 4), first := u16 b (o + 8), last := u16 b (o + 10) }

/-- Partition p may join job j (R39, section 0x0009). -/
def Survey.jobOk (v : Survey) (p j : Nat) : Bool :=
  let b := v.body 9
  (List.range (u64 b 0)).any fun i =>
    let o := 64 + 8 * i
    u8 b o == p && u16 b (o + 2) ≤ j && j ≤ u16 b (o + 4)

/-- Section 0x000A (R39): PRIMARY, and per port ENABLE, VF_COUNT, BAR2_LOG2. -/
def Survey.primary (v : Survey) : Nat := u8 (v.body 10) 0
def Survey.portOn (v : Survey) (p : Nat) : Bool := u8 (v.body 10) (64 + 64 * p) == 1
def Survey.vfCount (v : Survey) (p : Nat) : Nat := u8 (v.body 10) (64 + 64 * p + 1)
def Survey.bar2Log (v : Survey) (p : Nat) : Nat := u8 (v.body 10) (64 + 64 * p + 2)

/-- Section 0x000B (R39): STATIC_MODE, STATIC_PART, IDLE_MODE, IDLE_PART. -/
def Survey.staticTo (v : Survey) : Option Nat := if u8 (v.body 11) 0 = 1 then some (u8 (v.body 11) 1) else Option.none
def Survey.idleTo (v : Survey) : Option Nat := if u8 (v.body 11) 2 = 1 then some (u8 (v.body 11) 3) else Option.none

/-- ENVELOPE_W (R39); 1,200 W with no Survey (R48). -/
def Survey.envelope (v : Survey) : Nat := match v.sec 12 with | some b => u16 b 0 | Option.none => 1200

/-- Section 0x000D (R39): the Pit Log bit, and per partition host debug and JTAG unlock allowed. -/
def Survey.pitOpen (v : Survey) : Bool := bit (u8 (v.body 13) 0) 0
def Survey.hostDebug (v : Survey) (p : Nat) : Bool := bit (u32 (v.body 13) (64 + 4 * p)) 0
def Survey.jtagDebug (v : Survey) (p : Nat) : Bool := bit (u32 (v.body 13) (64 + 4 * p)) 1

/-- Section 0x000E (R39), with the defaults of an absent section. -/
def Survey.maxReplicas (v : Survey) (p : Nat) : Nat := match v.sec 14 with | some b => u8 b (16 * p) | Option.none => 2
def Survey.pflags (v : Survey) (p : Nat) : Nat := match v.sec 14 with | some b => u8 b (16 * p + 1) | Option.none => 7
def Survey.maxDistrict (v : Survey) (p : Nat) : Nat := match v.sec 14 with | some b => u16 b (16 * p + 2) | Option.none => 576

/-- Section 0x000F (R39): the retired pages of the image. -/
def Survey.retired (v : Survey) : List Nat :=
  (List.range (u64 (v.body 15) 0)).map fun i => u64 (v.body 15) (64 + 8 * i)

end Sys2Proof.Machine
end

