-- ==== Sys2Proof/Machine/Ops.lean ====
section
/-!
DEFINITION. The named operations over State: units by number, memory at its points of coherence, translation (R239 to R249),
the epoch (R252), interrupts (R403, R404), fault records (R476 to R483), the Pit Log's queue (R484) and activity (R441).
-/

namespace Sys2Proof.Machine

/-! Units by number. -/

def State.fn (s : State) (q : Nat) : Fn := Tab.get {} s.fns q
def State.updFn (s : State) (q : Nat) (f : Fn → Fn) : State := { s with fns := Tab.upd {} s.fns q f }
def State.port (s : State) (i : Nat) : HostPort := Tab.get {} s.ports i
def State.updPort (s : State) (i : Nat) (f : HostPort → HostPort) : State := { s with ports := Tab.upd {} s.ports i f }
def State.part (s : State) (p : Nat) : Part := Tab.get {} s.parts p
def State.updPart (s : State) (p : Nat) (f : Part → Part) : State := { s with parts := Tab.upd {} s.parts p f }
def State.ring (s : State) (p n : Nat) : Ring := Tab.get {} (s.part p).rings n
def State.updRing (s : State) (p n : Nat) (f : Ring → Ring) : State :=
  s.updPart p fun x => { x with rings := Tab.upd {} x.rings n f }
def State.cmd (s : State) (p k : Nat) : Cmd := Tab.get {} (s.part p).cmds k
def State.updCmd (s : State) (p k : Nat) (f : Cmd → Cmd) : State :=
  s.updPart p fun x => { x with cmds := Tab.upd {} x.cmds k f }
def State.core (s : State) (c : Nat) : Core := Tab.get {} s.cores c
def State.updCore (s : State) (c : Nat) (f : Core → Core) : State := { s with cores := Tab.upd {} s.cores c f }
def State.gang (s : State) (g : Nat) : Gang := Tab.get {} s.gangs g
def State.updGang (s : State) (g : Nat) (f : Gang → Gang) : State := { s with gangs := Tab.upd {} s.gangs g f }
def State.sub (s : State) (b : Nat) : List StEntry := Tab.get [] s.subs b
def State.setSub (s : State) (b : Nat) (l : List StEntry) : State := { s with subs := Tab.set [] s.subs b l }
def State.chan (s : State) (c : Nat) : Chan := Tab.get {} s.mem.chans c
def State.updMem (s : State) (f : Mem → Mem) : State := { s with mem := f s.mem }
def State.updChan (s : State) (c : Nat) (f : Chan → Chan) : State :=
  s.updMem fun m => { m with chans := Tab.upd {} m.chans c f }
def State.region (s : State) (r : Nat) : Region := Tab.get {} s.mem.regions r
def State.updRegion (s : State) (r : Nat) (f : Region → Region) : State :=
  s.updMem fun m => { m with regions := Tab.upd {} m.regions r f }
def State.seam (s : State) (p i : Nat) : Seam := Tab.get {} (s.part p).plc.seams i
def State.updPlc (s : State) (p : Nat) (f : Placement → Placement) : State :=
  s.updPart p fun x => { x with plc := f x.plc }
def State.updSeam (s : State) (p i : Nat) (f : Seam → Seam) : State :=
  s.updPlc p fun x => { x with seams := Tab.upd {} x.seams i f }
def State.conv (s : State) (p c : Nat) : Conveyor := Tab.get {} (s.part p).plc.conveyors c
def State.updConv (s : State) (p c : Nat) (f : Conveyor → Conveyor) : State :=
  s.updPlc p fun x => { x with conveyors := Tab.upd {} x.conveyors c f }
def State.tensor (s : State) (p t : Nat) : Tensor := Tab.get {} (s.part p).plc.tensors t
def State.updTensor (s : State) (p t : Nat) (f : Tensor → Tensor) : State :=
  s.updPlc p fun x => { x with tensors := Tab.upd {} x.tensors t f }
def State.stg (s : State) (p i : Nat) : Stage := Tab.get {} (s.part p).plc.stages i
def State.updStage (s : State) (p i : Nat) (f : Stage → Stage) : State :=
  s.updPlc p fun x => { x with stages := Tab.upd {} x.stages i f }
def State.fabPort (s : State) (i : Nat) : FabPort := Tab.get {} s.fab.ports i
def State.updFab (s : State) (f : Fab → Fab) : State := { s with fab := f s.fab }
def State.updFabPort (s : State) (i : Nat) (f : FabPort → FabPort) : State :=
  s.updFab fun x => { x with ports := Tab.upd {} x.ports i f }
def State.job (s : State) (i : Nat) : Job := Tab.get {} s.jobs i
def State.updJob (s : State) (i : Nat) (f : Job → Job) : State := { s with jobs := Tab.upd {} s.jobs i f }
def State.engine (s : State) (e : Nat) : Engine := Tab.get {} s.engines e
def State.updEngine (s : State) (e : Nat) (f : Engine → Engine) : State := { s with engines := Tab.upd {} s.engines e f }

/-- A released domain (R25). -/
def State.rel (s : State) (d : Nat) : Bool := bit s.rst.released d

/-- The next free value (log entry 2). -/
def State.draw (s : State) : DWord × State := (Config.freeValue s.free, { s with free := s.free + 1 })

/-- n free values. -/
def State.draws (n : Nat) (s : State) : List Nat × State :=
  ((List.range n).map fun i => (Config.freeValue (s.free + i)).toNat, { s with free := s.free + n })

/-! Bytes. -/

/-- n bytes of a space from address a. -/
def Memory.read (m : Memory) (a n : Nat) : List Byte := (List.range n).map fun i => Tab.get 0#8 m (a + i)

/-- One byte of a space. -/
def Memory.byte (m : Memory) (a : Nat) : Byte := Tab.get 0#8 m a

/-- Writes bytes from address a. -/
def Memory.write (m : Memory) (a : Nat) : List Byte → Memory
  | [] => m
  | b :: t => Memory.write (Tab.set 0#8 m a b) (a + 1) t

/-- Sets n bytes from address a to zero. -/
def Memory.zero (m : Memory) (a n : Nat) : Memory := Tab.clear (fun i => decide (a ≤ i ∧ i < a + n)) m

/-- The canonical form of a space's bytes. -/
def Memory.wf (m : Memory) : Bool := Tab.wf 0#8 m

/-! Device memory at the home slice (R176, R199 to R201, R214, R219 to R225). -/

/-- The fields of a device physical address (R199). -/
def paChan (a : Nat) : Nat := a / 2 ^ 31
def paPage (a : Nat) : Nat := a / 2 ^ 16 % 2 ^ 15
def paLine (a : Nat) : Nat := a / 128
def paOf (ch page off : Nat) : Nat := ch * 2 ^ 31 + page * 2 ^ 16 + off

/-- The other copy of a guarded line, or of a table (R201, R241). -/
def copyB (a : Nat) : Nat := a ^^^ 2 ^ 39

/-- The region whose copy A, or copy B when guarded, holds address a (R219). -/
def State.regionAt (s : State) (a : Nat) : Option Nat :=
  s.mem.regions.findSome? fun e =>
    let g := match s.sv.region e.1 with | some d => d.guarded | none => false
    let f := (paChan a, paPage a)
    let f' := (paChan (copyB a), paPage (copyB a))
    if e.2.frames.contains f || (g && e.2.frames.contains f') then some e.1 else none

/-- The region is kept twice (R36). -/
def State.guardedAt (s : State) (a : Nat) : Bool :=
  match s.regionAt a with
  | some r => (match s.sv.region r with | some d => d.guarded | none => false)
  | none => false

/-- A dead channel (R225). -/
def State.deadAt (s : State) (a : Nat) : Bool := (s.chan (paChan a)).state == .dead

/-- Where a read of a is served (R219): copy B when copy A's channel is dead. -/
def State.readAt (s : State) (a : Nat) : Nat := if s.deadAt a && s.guardedAt a then copyB a else a

/-- A line reads poisoned (R214, R222, R225): its mark, a condemned region, or a dead channel with no other copy. -/
def State.poisonAt (s : State) (a : Nat) : Bool :=
  Tab.get 0 s.mem.poison (paLine (s.readAt a)) != 0 || s.deadAt (s.readAt a) ||
  (match s.regionAt a with | some r => (s.region r).state == .condemned | none => false)

/-- n bytes at the home slice, within one line. -/
def State.devRead (s : State) (a n : Nat) : List Byte := s.mem.dev.read (s.readAt a) n

/-- The mask of n bytes from address a in their line. -/
def byteMask (a n : Nat) : Nat := (2 ^ n - 1) * 2 ^ (a % 128) % 2 ^ 128

/-- Marks, or clears, the poison of a line (R214): all of its codewords are written anew, without error. -/
def State.setPoison (s : State) (a : Nat) (b : Bool) : State :=
  s.updMem fun m => { m with
    poison := Tab.set 0 m.poison (paLine a) (if b then 255 else 0), cover := Tab.set 0 m.cover (paLine a) 0
    found := if b then m.found else Tab.set false m.found (paLine a) false
    flips := m.flips.filter fun f => f.line != paLine a }

/-- One write within a line at one copy (R214, R225): discarded on a dead channel; writes that together cover a poisoned line clear its
poison. -/
def State.devWrite1 (s : State) (a : Nat) (d : List Byte) : State :=
  if s.deadAt a then s
  else
    let s := s.updMem fun m => { m with dev := m.dev.write a d }
    let c := Tab.get 0 s.mem.cover (paLine a) ||| byteMask a d.length
    if Tab.get 0 s.mem.poison (paLine a) = 0 then s
    else if c = 2 ^ 128 - 1 then s.setPoison a false
    else s.updMem fun m => { m with cover := Tab.set 0 m.cover (paLine a) c }

/-- A write within a line at its point of coherence: both copies of a guarded region (R219). -/
def State.devWrite (s : State) (a : Nat) (d : List Byte) : State :=
  if s.guardedAt a then (s.devWrite1 a d).devWrite1 (copyB a) d else s.devWrite1 a d

/-- Sets a whole 64 KiB page to zero without poison (R219, R264). -/
def State.zeroPage (s : State) (ch page : Nat) : State :=
  s.updMem fun m => { m with
    dev := m.dev.zero (paOf ch page 0) 65536
    poison := Tab.clear (fun l => decide (l / 512 = paOf ch page 0 / 65536)) m.poison
    cover := Tab.clear (fun l => decide (l / 512 = paOf ch page 0 / 65536)) m.cover
    found := Tab.clear (fun l => decide (l / 512 = paOf ch page 0 / 65536)) m.found
    flips := m.flips.filter fun f => decide (f.line / 512 ≠ paOf ch page 0 / 65536) }

/-- A coherent agent's line is recalled before an access by another requester (R260): a write or atomic ends every copy. -/
def State.recall (s : State) (line : Nat) (write : Bool) : State :=
  let e := Tab.get {} s.mem.dir line
  if write then (if e = {} then s else s.updMem fun m => { m with dir := Tab.set {} m.dir line {} })
  else
    match e.owner with
    | some o => s.updMem fun m => { m with dir := Tab.set {} m.dir line { e with owner := none, sharers := [o] } }
    | none => s

/-! Codewords (R211 to R214). -/

/-- The product in GF(16) by x⁴ + x + 1 (R211). -/
def gfMul (a b : Nat) : Nat :=
  (List.range 4).foldl (init := 0) fun r i =>
    let t := (List.range i).foldl (fun v _ => if v ≥ 8 then (2 * v % 16) ^^^ 3 else 2 * v) a
    if bit b i then r ^^^ t else r

/-- The column of a symbol (R212). -/
def ccCol (i : Nat) : List Nat :=
  match i with
  | 32 => [1, 0, 0, 0]
  | 33 => [0, 0, 0, 1]
  | 34 => [1, 1, 0, 1]
  | 35 => [1, 0, 1, 8]
  | _ =>
    let x := i % 16
    let y := 2 + i / 16
    [1, x, y, gfMul x x ^^^ gfMul x y ^^^ gfMul 8 (gfMul y y)]

/-- The syndrome of the errors met in one codeword (R212). -/
def syndrome (es : List Flip) : List Nat :=
  es.foldl (init := [0, 0, 0, 0]) fun s e => List.zipWith (fun a h => a ^^^ gfMul (e.err % 16) h) s (ccCol e.sym)

/-- What a syndrome means (R213). -/
inductive Verdict where
  | clean
  | single (sym err : Nat)
  | poison
  | bad
  deriving DecidableEq, Repr

def verdict (s : List Nat) : Verdict :=
  if s = [0, 0, 0, 0] then .clean
  else
    let e := s.headD 0
    if e != 0 then
      match (List.range 36).find? fun i => i != 33 && (ccCol i).map (gfMul e) == s with
      | some i => .single i e
      | none => .bad
    else if s.take 3 = [0, 0, 0] then .single 33 (s.getD 3 0)
    else if s = [0, 1, 0, 0] then .poison
    else .bad

/-- The disturbed symbols of a line. -/
def State.lineFlips (s : State) (line : Nat) : List Flip := s.mem.flips.filter fun f => f.line == line

/-- The syndrome of a codeword as it lies in its channel (R213, R214): a poisoned one has its pattern. -/
def State.syndromeOf (s : State) (line k : Nat) : List Nat :=
  let e := syndrome ((s.lineFlips line).filter fun f => f.cw == k)
  if bit (Tab.get 0 s.mem.poison line) k then List.zipWith (· ^^^ ·) e [0, 1, 0, 0] else e

/-- The codewords of a line that are uncorrectable, with their syndromes. -/
def State.badWords (s : State) (line : Nat) : List (Nat × List Nat) :=
  (List.range 8).filterMap fun k => let sy := s.syndromeOf line k; if verdict sy = .bad then some (k, sy) else none

/-! Lines of the L2 (R226). A line is numbered by its address / 128. -/

/-- XOR of the successive n-bit fields of x (R200); 0 when n is 0. -/
def foldBits (n : Nat) : Nat → Nat → Nat
  | 0, _ => 0
  | f + 1, x => if n = 0 then 0 else (x % 2 ^ n) ^^^ foldBits n f (x / 2 ^ n)

/-- The slice and set of a line (R226). -/
def l2Slice (line : Nat) : Nat := line / 2 ^ 24 / 2
def l2Set (line : Nat) : Nat := foldBits 9 9 (line % 2 ^ 24) ^^^ (line / 2 ^ 24 % 2 * 256)

def Slice.way (sl : Slice) (set w : Nat) : L2Way := Tab.get {} sl.ways (set * 16 + w)
def Slice.setWay (sl : Slice) (set w : Nat) (v : L2Way) : Slice := { sl with ways := Tab.set {} sl.ways (set * 16 + w) v }

/-- The way that holds a line. -/
def Slice.find (sl : Slice) (line : Nat) : Option Nat :=
  (List.range 16).find? fun w => (sl.way (l2Set line) w).line == some line

/-- The L2 does not hold a line whole: a read of it goes to its channel. -/
def State.away (s : State) (line : Nat) : Bool :=
  let sl := Tab.get {} s.mem.slices (l2Slice line)
  match sl.find line with
  | some w => (sl.way (l2Set line) w).partialFill
  | none => true

/-! Translation. -/

/-- The group, member and page offset of seam offset o in a seam of 2^n channels and stride 2^t (R200). -/
def seamPlace (n t o : Nat) : Nat × Nat × Nat :=
  let g := o / 2 ^ (16 + n)
  let w := o % 2 ^ (16 + n)
  let k := w / 2 ^ t
  (g, (k % 2 ^ n) ^^^ foldBits n 64 (k / 2 ^ n), k / 2 ^ n * 2 ^ t + w % 2 ^ t)

/-- Where a definition places seam offset o (R200, R249). -/
def SeamDef.place (d : SeamDef) (o : Nat) : Option Nat :=
  let n := Nat.log2 d.chans.length
  let (g, j, off) := seamPlace n d.stride o
  match d.chans[j]?, Tab.get 0 d.frames (g * 2 ^ n + j) with
  | some _, 0 => none
  | some c, pg + 1 => some (paOf c pg off)
  | none, _ => none

/-- Where a region's seam places offset o. -/
def Region.place (r : Region) (o : Nat) : Option Nat :=
  let n := Nat.log2 r.chans.length
  let (g, j, off) := seamPlace n r.stride o
  (r.frames[g * 2 ^ n + j]?).map fun f => paOf f.1 f.2 off

/-- The device physical address of seam offset o (R200, R249); during a move of the seam, pages already moved lie under the
new definition (R280). -/
def State.seamPhys (s : State) (sm : Seam) (o : Nat) : Option Nat :=
  match sm.region with
  | some r => (s.region r).place o
  | none =>
    match sm.goal with
    | some (d, m) => if o / 65536 < m then d.place o else sm.d.place o
    | none => sm.d.place o

/-- A translation (R244): the leaf's kind, where the address lies, and its permissions. -/
structure Xl where
  kind : Nat
  loc : Loc
  r : Bool
  w : Bool
  a : Bool
  x : Bool
  deriving DecidableEq, Repr

/-! The device's own tables (R202, R240 to R243, R249). They lie in reserved pages, each twice, at places that the engine chooses (log
entry 110); a table's content is what the placement engine last wrote there. -/

/-- The reserved address that place x names. -/
def State.ownPa (s : State) (x : Nat) : Nat := paOf (x / 2 ^ 25 % 512) ((s.chan (x / 2 ^ 25 % 512)).pages - 512) (x % 2 ^ 25)

/-- The codeword at a reads well in its channel (R213). -/
def State.wordOk (s : State) (a : Nat) : Bool :=
  !s.deadAt a && (match verdict (s.syndromeOf (paLine a) (a % 128 / 16)) with | .clean => true | .single _ _ => true | _ => false)

/-- Nothing in memory is dead, poisoned or disturbed. -/
def State.sound (s : State) : Bool :=
  s.mem.poison.isEmpty && s.mem.flips.isEmpty && s.mem.chans.all fun e => e.2.state != .dead

/-- Where a walk reads an entry of the device's own tables (R241): copy A, or copy B when A is uncorrectable or its channel dead; none:
neither can be read. -/
def State.tableCopy (s : State) (a : Nat) : Option Nat :=
  if s.sound || s.wordOk a then some a else if s.wordOk (copyB a) then some (copyB a) else none

/-- Bytes of a table of a level, and the index of an address in it (R242). -/
def tableBytes (l : Nat) : Nat := match l with | 0 => 2 ^ 19 | 1 => 4096 | 2 => 4096 | _ => 256
def tableIndex (l va : Nat) : Nat :=
  match l with | 0 => bits va 54 39 | 1 => bits va 38 30 | 2 => bits va 29 21 | _ => bits va 20 16
/-- log₂ of the bytes that a table of a level covers. -/
def tableSpan (l : Nat) : Nat := match l with | 0 => 55 | 1 => 39 | 2 => 30 | _ => 21

/-- The device physical address of the pool-half table of a level for an address. -/
def State.poolTable (s : State) (p slot l va : Nat) : Nat :=
  s.ownPa (Config.tablePlace (((p * 256 + slot) * 4 + l) * 2 ^ 40 + va / 2 ^ tableSpan l) / tableBytes l * tableBytes l)

/-- The key of a virtual page of a slot in the partition's tables. -/
def pageKey (slot va : Nat) : Nat := slot * 2 ^ 39 + va / 65536 % 2 ^ 39

/-- The pool-half entry of a level on the way to a leaf (R243, R244): the next table's address with VALID, or the leaf word. -/
def State.poolEntry (s : State) (p slot l va : Nat) : Nat :=
  if l < 3 then s.poolTable p slot (l + 1) va + 1 else Tab.get 0 (s.part p).table (pageKey slot va)

/-- The next table's address that a non-leaf entry names. -/
def nextOf (w : Nat) : Nat := bits w 55 8 * 256

/-- The addresses of the entries that a pool-half walk reads (R242, R248). -/
def State.poolSteps (s : State) (p slot va : Nat) : List Nat :=
  (List.range 4).map fun l =>
    (if l = 0 then s.poolTable p slot 0 va else nextOf (s.poolEntry p slot (l - 1) va)) + 8 * tableIndex l va

/-- A pool-half walk (R240 to R242): the leaf word, when it is present and every entry on the way can be read. -/
def State.walkPool (s : State) (p slot va : Nat) : Option Nat :=
  let w := s.poolEntry p slot 3 va
  if w = 0 then none else if s.sound || (s.poolSteps p slot va).all fun a => (s.tableCopy a).isSome then some w else none

/-- The frame-map index of a seam's offset (R249), and the device physical address of that entry. -/
def State.frameKey (s : State) (p i o : Nat) : Nat :=
  let sm := s.seam p i
  let (chans, stride) := match sm.region with
    | some r => ((s.region r).chans, (s.region r).stride)
    | none => (sm.d.chans, sm.d.stride)
  let n := Nat.log2 chans.length
  let (g, j, _) := seamPlace n stride o
  g * 2 ^ n + j
def State.frameAt (s : State) (p i k : Nat) : Nat := s.ownPa (Config.tablePlace (2 ^ 60 + p * 256 + i) / 2 * 2) + 2 * k

/-! TLBs (R246). Cores, copy engines and command processors have one each, and share their tier's; other requesters are given none
(log entry 111). -/

def tlbCore (c : Nat) : Nat := c
def tlbEngine (e : Nat) : Nat := 576 + e
def tlbCp (p : Nat) : Nat := 640 + p
def tlbNone : Nat := 660
def tlbShared (t : Nat) : Nat := 656 + t

/-- The tier of a requester with a TLB. -/
def tierOf (u : Nat) : Nat := if u < 576 then u / 144 else if u < 640 then (u - 576) / 16 else (u - 640) / 4

/-- The translation that requester u finds cached (R246, R247). -/
def State.tlbHit (s : State) (u p slot va : Nat) : Option TlbEntry :=
  let hit := fun (i : Nat) => (Tab.get [] s.mem.tlbs i).find? fun e =>
    e.part == p && e.slot == slot && decide (e.base ≤ va ∧ va < e.base + 2 ^ e.bits)
  if u < 656 then (hit u).or (hit (tlbShared (tierOf u))) else none

/-- The frame-map entry of a seam's offset is cached in the requester's tier, or can be read (R241, R249). -/
def State.frameSeen (s : State) (u p i o : Nat) : Bool :=
  s.sound || (s.tableCopy (s.frameAt p i (s.frameKey p i o))).isSome ||
  (decide (u < 656) && (Tab.get [] s.mem.frames (tierOf u)).contains (p, i, s.frameKey p i o))

/-! Leaves and walks. -/

/-- What a leaf word gives requester u for an address: the offset within the page is `o`, the page 2^l bytes (R244, R245). -/
def State.leaf (s : State) (u p w o l : Nat) (pool : Bool) : Option Xl :=
  let kind := bits w 3 2
  let t := w / 65536
  let pm := fun (loc : Loc) => some { kind := kind, loc := loc, r := bit w 4, w := bit w 5, a := bit w 6, x := bit w 7 : Xl }
  if !bit w 0 || !bit w 1 || bits w 15 10 != 0 || bit w 8 then none
  else if kind = 0 && pool then
    if bit w 9 || bits t 39 24 != 0 then none
    else
      let i := bits t 47 40
      let off := bits t 23 0 * 65536 + o
      match s.seamPhys (s.seam p i) off with
      | some a => if s.frameSeen u p i off then pm (.dev a) else none
      | none => none
  else if kind = 1 && !pool then
    let base := bits t 39 0 * 65536
    if bits t 46 40 != 0 || bit w 7 || bit w 6 || base % 2 ^ l != 0 then none
    else pm (.host (bits t 47 47) (base + o) (bit w 9))
  else if kind = 2 && !pool && l = 16 then
    if bits t 46 10 != 0 || bit w 9 || bit w 7 || bit w 6 || (bit t 47 && bits t 9 0 > 255) then none
    else pm (.ctrl (bit t 47) (bits t 9 0 * 65536 + o))
  else none

/-- XLT_AS_CTRL[slot].ENABLE (R239). -/
def State.asOn (s : State) (p slot : Nat) : Bool := bit (Tab.get 0 (s.part p).as slot) 63

/-- The pool-half translation that requester u has: cached, or walked. -/
def State.poolXl (s : State) (u p slot va : Nat) : Option Xl :=
  let w := match s.tlbHit u p slot va with | some e => some e.leaf | none => s.walkPool p slot va
  w.bind fun w => s.leaf u p w (va % 65536) 16 true

/-- A line reads poisoned, or has just become unreadable in its channel. -/
def State.badRead (s : State) (a : Nat) : Bool :=
  s.poisonAt a || (s.away (paLine a) && !s.wordOk a && !(s.guardedAt a && s.wordOk (copyB a)))

/-- An 8-byte table entry at a pool-half address that translates to readable memory, unless it reads poisoned (R245). -/
def State.tableEntry (s : State) (u p slot va : Nat) : Option Nat :=
  if va ≥ 2 ^ 55 then none
  else
    match s.poolXl u p slot va with
    | some { loc := .dev a, r := true, .. } => if s.badRead a then none else some (leVal (s.devRead a 8))
    | _ => none

/-- The next table's address that a driver-half non-leaf entry names, its table aligned to 2^al (R243). -/
def nextTable (al w : Nat) : Option Nat :=
  if bit w 0 && !bit w 1 && bits w 63 56 = 0 && bits w 7 2 = 0 && nextOf w % 2 ^ al = 0 then some (nextOf w) else none

/-- The driver-half walk (R242 to R245): the addresses of the entries it reads, and the leaf word with its page's size (log₂). -/
def State.driverSteps (s : State) (u p slot va : Nat) : List Nat × Option (Nat × Nat) :=
  let root := bits (Tab.get 0 (s.part p).as slot) 55 19 * 2 ^ 19
  let get := s.tableEntry u p slot
  if root ≥ 2 ^ 55 then ([], none)
  else
    let v0 := root + 8 * bits va 54 39
    match (get v0).bind (nextTable 12) with
    | none => ([v0], none)
    | some t1 =>
      let v1 := t1 + 8 * bits va 38 30
      match get v1 with
      | none => ([v0, v1], none)
      | some e1 =>
        if bit e1 1 then ([v0, v1], some (e1, 30))
        else
          match nextTable 12 e1 with
          | none => ([v0, v1], none)
          | some t2 =>
            let v2 := t2 + 8 * bits va 29 21
            match get v2 with
            | none => ([v0, v1, v2], none)
            | some e2 =>
              if bit e2 1 then ([v0, v1, v2], some (e2, 21))
              else
                match nextTable 8 e2 with
                | none => ([v0, v1, v2], none)
                | some t3 =>
                  let v3 := t3 + 8 * bits va 20 16
                  ([v0, v1, v2, v3], (get v3).map fun w => (w, 16))

/-- The leaf that a requester has for an address, with its page's size: cached by an earlier walk (R247), or walked. -/
def State.leafOf (s : State) (u p slot va : Nat) : Option (Nat × Nat) :=
  match s.tlbHit u p slot va with
  | some e => some (e.leaf, e.bits)
  | none => if va < 2 ^ 55 then (s.walkPool p slot va).map fun w => (w, 16) else (s.driverSteps u p slot va).2

/-- The translation of a virtual address of a partition's slot for requester u (R239 to R245); none: not present. -/
def State.xlate (s : State) (u p slot va : Nat) : Option Xl :=
  if va ≥ 2 ^ 56 || !s.asOn p slot then none
  else (s.leafOf u p slot va).bind fun e => s.leaf u p e.1 (va % 2 ^ e.2) e.2 (decide (va < 2 ^ 55))

/-- The live adit window of partition p that holds an address (R255): the lowest-numbered. -/
def State.aditAt (s : State) (p va : Nat) : Option (Nat × AditSet) :=
  (s.part p).adits.findSome? fun e =>
    let w := e.2.live
    match s.sv.outWin e.1 with
    | some o => if o.1 = p && w.base ≤ va && va < w.limit then some (e.1, w) else none
    | none => none

/-- The permissions of an outbound window: TARGET's bits within the Survey's PERM (R255, R371): read, write, atomic. -/
def State.aditPerm (s : State) (a : Nat) (w : AditSet) (b : Nat) : Bool :=
  match s.sv.outWin a with
  | some (_, perm, lo, hi) =>
    bit w.target b && bit perm b && decide (lo ≤ bits w.target 29 16 ∧ bits w.target 29 16 ≤ hi)
  | none => false

/-! Reads and writes by the command processor and other engines, through a partition's slot. -/

/-- Reads n bytes at a virtual address, byte by byte across pages: the bytes and whether any was poisoned; none when a
page is not present or not readable (R294 XLT). -/
def State.vread (s : State) (u p slot va : Nat) : Nat → Option (List Byte × Bool)
  | 0 => some ([], false)
  | n + 1 =>
    match s.xlate u p slot va with
    | some { loc := .dev a, r := true, .. } =>
      (s.vread u p slot (va + 1) n).map fun (d, q) => (s.mem.dev.byte (s.readAt a) :: d, s.poisonAt a || q)
    | _ => none

/-- Splits bytes at 128-byte line boundaries from address a: (offset, bytes) pieces. -/
def linePieces : Nat → Nat → Nat → List Byte → List (Nat × List Byte)
  | 0, _, _, _ => []
  | f + 1, a, o, d =>
    if d.isEmpty then []
    else
      let n := 128 - (a + o) % 128
      (o, d.take n) :: linePieces f a (o + n) (d.drop n)

/-- The whole range may be written through the slot (seam or host leaf). -/
def State.vwritable (s : State) (u p slot va n : Nat) : Bool :=
  (linePieces (n + 1) va 0 (List.replicate n 0#8)).all fun e =>
    match s.xlate u p slot (va + e.1) with
    | some { loc := .dev _, w := true, .. } => true
    | some { loc := .host _ _ _, w := true, .. } => true
    | _ => false

/-- Sends a message out of a host port (R405); a port that is not READY sends nothing. -/
def State.send (s : State) (i : Nat) (m : HostTx) : State :=
  if (s.port i).dom == .ready then s.updPort i fun x => { x with out := x.out ++ [m] } else s

/-- The function of a port under which a partition's requests to its host go (R244): its own function, or the physical function of the
other port. -/
def State.hostFn (s : State) (p i : Nat) : Nat := if s.sv.fn p / 16 = i then s.sv.fn p % 16 else 0

/-- Writes bytes of a record at a virtual address, line by line, at their points of coherence, strongly ordered (R405). -/
def State.vwrite (s : State) (u p slot va : Nat) (d : List Byte) : State :=
  (linePieces (d.length + 1) va 0 d).foldl (init := s) fun s e =>
    match s.xlate u p slot (va + e.1) with
    | some { loc := .dev a, w := true, .. } => (s.recall (paLine a) true).devWrite a e.2
    | some { loc := .host i a _, w := true, .. } => s.send i (.write (s.hostFn p i) a e.2 false)
    | _ => s

/-! Epochs (R252). -/

/-- The stamps that accesses of partition p hold. -/
def State.stamps (s : State) (p : Nat) : List Nat :=
  let held := fun (x : Nat × Option Waiter) => match x.2.bind Waiter.stamp with
    | some (q, t) => if q = p then some t else none
    | none => none
  (s.ports.flatMap fun e => e.2.reqs.filterMap held ++ e.2.asks.filterMap fun a => held (0, some a.2.2.2)) ++ s.fab.tags.filterMap held ++
  ((s.part p).cmds.flatMap fun e => e.2.landed.map (·.2.2.2.2)) ++
  (s.gangs.flatMap fun e => if e.2.k.part = p then e.2.pend.filterMap (·.stamp) else []) ++
  (s.subs.flatMap fun e => e.2.filterMap fun x => if (s.gang x.gang).k.part = p then x.stamp else none)

/-- OLDEST (R252): the smallest stamp held, counted back from CURRENT. -/
def State.oldest (s : State) (p : Nat) : Nat :=
  let c := (s.part p).epoch
  (s.stamps p).foldl (fun o t => if modSub 65536 c t > modSub 65536 c o then t else o) c

/-! Functions and interrupts. -/

/-- The primary port (R402): the claimant, else the Survey's choice at the release of D2, held in the port's state. -/
def State.primary (s : State) : Nat := if (s.port 1).claimed then 1 else if (s.port 0).claimed then 0 else s.rst.prim

/-- Function q is present (R400): its port came up with it, and VF Enable is set for a virtual function. -/
def State.fnOn (s : State) (q : Nat) : Bool :=
  if q ≥ 32 then true
  else if q % 16 = 0 then (s.port (q / 16)).present
  else (s.port (q / 16)).present && (s.fn (q / 16 * 16)).cfg.vfEn && q % 16 ≤ (s.port (q / 16)).vfs

/-- The partitions bound to function q (R33, R400). -/
def State.bound (s : State) (q : Nat) : List Nat := s.sv.parts.filter fun p => s.sv.fn p == q

/-- Vector v of function q can go out (R403): MSI-X is enabled, and neither the function's mask nor the vector's is set. The table
holds a vector's control word inverted in bit 0, so that an unlisted vector is masked. -/
def State.vectorOpen (s : State) (q v : Nat) : Bool :=
  let c := (s.fn q).cfg
  (s.port (q / 16)).dom == .ready && c.msixEn && !c.msixMask && bit (Tab.get 0 c.table (4 * v + 3)) 0

def State.setPba (s : State) (q v : Nat) (on : Bool) : State :=
  s.updFn q fun f => { f with cfg := { f.cfg with
    pba := f.cfg.pba - (if bit f.cfg.pba v then 2 ^ v else 0) + (if on then 2 ^ v else 0) } }

/-- Raises vector v of function q (R403, R404): the message goes out, or the pending bit waits for the mask, the table, the
port or VF Enable (R476). -/
def State.raise (s : State) (q v : Nat) : State :=
  let x := s.port (q / 16)
  if q ≥ 32 || !x.present || (q % 16 != 0 && decide (q % 16 > x.vfs)) then s
  else if s.fnOn q && s.vectorOpen q v then s.send (q / 16) (.msix q v)
  else s.setPba q v true

/-- Pending vectors that may now go out do. -/
def State.flushMsix (s : State) (q : Nat) : State :=
  (setBits 64 (s.fn q).cfg.pba).foldl (init := s) fun s v =>
    if s.fnOn q && s.vectorOpen q v then (s.setPba q v false).send (q / 16) (.msix q v) else s

/-- Raises an interrupt of the primary physical function (R402, R404). -/
def State.raisePrimary (s : State) (v : Nat) : State := s.raise (s.primary * 16) v

/-- DATA_OK (R396, R413): the link's rate, width and mode carry memory requests. -/
def HostPort.dataOk (x : HostPort) : Bool := x.dom == .ready && (x.rate == 5 || x.rate == 6) && (x.width == 4 || x.width == 8) && x.flit

/-! Registers that other chapters copy. -/

/-- TIM_STATUS (R340). -/
def State.timStatus (s : State) : Nat :=
  let t := s.tim
  let st := match t.state with | .free => 0 | .acquiring => 1 | .lockedPps => 2 | .lockedFabric => 3 | .holdover => 4
  let cls := match t.state with | .lockedPps => 0 | .lockedFabric => t.cls | .holdover => if t.expired then 3 else 2 | _ => 3
  let sync := match t.state with | .lockedPps => true | .lockedFabric => true | .holdover => !t.expired | _ => false
  pack [(0, st), (16, b2n sync), (17, b2n (t.slew != 0)), (18, cls), (20, t.hops), (24, t.port.getD 0)]

/-- SYNC and CLASS of R323. -/
def State.sync (s : State) : Bool := bit s.timStatus 16
def State.cls (s : State) : Nat := bits s.timStatus 19 18

/-! The Pit Log's queue (R484). -/

/-- The kinds of records whose number is limited (R485, R487). -/
def pitLimited (kind : Nat) : Bool := kind == 2 || kind == 3

/-- 64 records of limited kinds have been written in the last 60 s of reference cycles (R487). -/
def State.pitFull (s : State) : Bool :=
  decide (64 ≤ (s.flt.writes.filter fun w => decide (s.clk < w + 60000000000)).length)

/-- Puts a record into the queue of 32 (R484); beyond the limit of R487 entries pack, up to 62 of 64 bytes; what finds no room
is counted. -/
def State.pitQueue (s : State) (r : PitRec) : State :=
  let packs := fun (x : PitRec) => x.kind == r.kind && decide (x.body.length + r.body.length ≤ 62 * 64)
  let q := s.flt.queue
  if pitLimited r.kind && s.pitFull && q.any packs then
    let i := q.findIdx packs
    { s with flt := { s.flt with queue := q.mapIdx fun j x => if j = i then { x with body := x.body ++ r.body } else x } }
  else if q.length < 32 then { s with flt := { s.flt with queue := q ++ [r] } }
  else { s with flt := { s.flt with skipped := Tab.upd 0 s.flt.skipped r.kind (· + 1) } }

/-- A record as the device forms it now (R484). -/
def State.pitRec (s : State) (kind source : Nat) (body : List Byte) : PitRec :=
  { kind := kind, source := source, stage := s.rst.stage, body := body.take 4000, time := s.tim.now
    cycles := (s.clk - s.rst.t0) / 10, tstatus := s.timStatus, boot := s.flash.boot }

/-- Asks the Deputy for a Pit Log record of a kind and source. -/
def State.pit (s : State) (kind source : Nat) (body : List Byte) : State := s.pitQueue (s.pitRec kind source body)

/-! Fault records. -/

/-- A fault record's 64 bytes with SEQ zero (R479). -/
def frec (cls flags extra part kind src time addr : Nat) (detail : List Byte) : List Byte :=
  leBytes 2 cls ++ leBytes 1 flags ++ leBytes 1 extra ++ leBytes 1 part ++ leBytes 1 kind ++ leBytes 2 0 ++
  leBytes 4 src ++ leBytes 4 0 ++ leBytes 8 time ++ leBytes 8 addr ++ padTo 32 detail

/-- Puts SEQ into a record (R478, R479). -/
def setSeq (r : List Byte) (n : Nat) : List Byte := r.take 12 ++ leBytes 4 n ++ r.drop 16

/-- The slots of a ring are all writable for n records at free-running index i (R481). -/
def State.slotsOk (s : State) (p base size width i n : Nat) : Bool :=
  (List.range n).all fun j => s.vwritable tlbNone p (base / 2 ^ 56) (base % 2 ^ 56 + width * ((i + j) % size)) width

/-- Tries to write a record to partition p's fault ring (R476, R481): the slots, then TAIL, then vector 0. -/
def State.fltTry (s : State) (p : Nat) (r : List Byte) : Bool × State :=
  let x := s.part p
  let n := r.length / 64
  let b := x.fltGrp.live
  let used := modSub two32 x.flt.tail x.flt.head
  if !s.dpt.crewUp || b.size = 0 || used + n > b.size then (false, s)
  else if !s.slotsOk p b.base b.size 64 x.flt.tail n then
    (false, s.updPart p fun x => { x with flt := { x.flt with fault := true } })
  else
    let r := setSeq r x.flt.sq
    let s := (List.range n).foldl (init := s) fun s j =>
      s.vwrite tlbNone p (b.base / 2 ^ 56) (b.base % 2 ^ 56 + 64 * ((x.flt.tail + j) % b.size)) (slice r (64 * j) 64)
    let s := s.updPart p fun x => { x with flt := { x.flt with
      tail := wrapAdd two32 x.flt.tail n, sq := wrapAdd two32 x.flt.sq 1, fault := false } }
    (true, s.raise (s.sv.fn p) 0)

/-- Tries to write a record to the device fault ring (R477); none is written while Crew is down (R481). -/
def State.dfltTry (s : State) (r : List Byte) : Bool × State :=
  let x := s.flt.ring
  let n := r.length / 64
  let down := !s.dpt.crewUp && s.rst.refuge = 0 && s.rst.stage ≥ 5
  if !s.rel 1 || down || modSub two32 x.tail x.head + n > 4096 then (false, s)
  else
    let r := setSeq r x.sq
    let d := (List.range n).foldl (fun t j => Tab.set [] t ((x.tail + j) % 4096) (slice r (64 * j) 64)) s.flt.dring
    let s := { s with flt := { s.flt with dring := d, ring := { x with
      tail := wrapAdd two32 x.tail n, sq := wrapAdd two32 x.sq 1 } } }
    (true, s.raisePrimary 6)

/-- The bookkeeping of a ring: a partition's, or the device's (none). -/
def State.fring (s : State) : Option Nat → FltRing
  | some p => (s.part p).flt
  | none => s.flt.ring

def State.updFring (s : State) (o : Option Nat) (f : FltRing → FltRing) : State :=
  match o with
  | some p => s.updPart p fun x => { x with flt := f x.flt }
  | none => { s with flt := { s.flt with ring := f s.flt.ring } }

def State.frTry (s : State) (o : Option Nat) (r : List Byte) : Bool × State :=
  match o with
  | some p => s.fltTry p r
  | none => s.dfltTry r

/-- Counts a lost record (R483). -/
def FltRing.lose (f : FltRing) (cls time : Nat) (ess : Bool) : FltRing :=
  let none_ := f.essential + f.info = 0
  let ovNone := f.ovEssential + f.ovInfo = 0
  { f with
    essential := satAdd 0xFFFF f.essential (b2n ess), info := satAdd 0xFFFF f.info (b2n !ess)
    firstClass := if none_ then cls else f.firstClass, firstTime := if none_ then time else f.firstTime
    lastClass := cls, lastTime := time
    ovEssential := f.ovEssential + b2n ess, ovInfo := f.ovInfo + b2n !ess
    ovFirstClass := if ovNone then cls else f.ovFirstClass, ovFirstTime := if ovNone then time else f.ovFirstTime
    ovLastClass := cls, ovLastTime := time }

/-- Writes held records in order while they fit (R481). -/
def State.flushHold : Nat → Option Nat → State → State
  | 0, _, s => s
  | f + 1, o, s =>
    match (s.fring o).hold with
    | [] => s
    | r :: t =>
      match s.frTry o r.bytes with
      | (true, s) => State.flushHold f o (s.updFring o fun x => { x with hold := t })
      | (false, s) => s

/-- Tries the ring again (R481, R483): held records, then the OVERFLOW record that is due. -/
def State.flushRing (s : State) (o : Option Nat) : State :=
  let s := State.flushHold 64 o s
  let x := s.fring o
  if x.hold.isEmpty && x.ovEssential + x.ovInfo > 0 then
    let d := leBytes 4 x.ovEssential ++ leBytes 4 x.ovInfo ++ leBytes 2 x.ovFirstClass ++ leBytes 8 x.ovFirstTime ++
      leBytes 2 x.ovLastClass ++ leBytes 8 x.ovLastTime
    match s.frTry o (frec 0x000A 0 0 (o.getD 0xFF) 0 0 s.tim.now 0 d) with
    | (true, s) => s.updFring o fun x => { x with
        ovEssential := 0, ovInfo := 0, ovFirstClass := 0, ovLastClass := 0, ovFirstTime := 0, ovLastTime := 0 }
    | (false, s) => s
  else s

/-- Enters a record of kind E (essential) or I into a ring (R481): written, held, or counted as lost. -/
def State.enter (s : State) (o : Option Nat) (ess : Bool) (r : List Byte) : State :=
  let s := s.flushRing o
  let lost := fun (s : State) => s.updFring o fun x => x.lose (u16 r 0) s.tim.now ess
  let hold := fun (s : State) =>
    if ess && (s.fring o).hold.length < 64
    then s.updFring o fun x => { x with hold := x.hold ++ [{ bytes := r, kind := b2n !ess }] } else lost s
  if (s.fring o).hold.isEmpty then
    match s.frTry o r with
    | (true, s) => s
    | (false, s) => hold s
  else hold s

/-- Reports an event of a class of R480 to partition p's ring. -/
def State.report (s : State) (p cls kind src addr : Nat) (detail : List Byte) (ess : Bool := true) (flags : Nat := 0) : State :=
  s.enter (some p) ess (frec cls (flags + b2n !ess) 0 p kind src s.tim.now addr detail)

/-- Reports an event of a class of R480 to the device ring; `pit` classes go to the Pit Log too. -/
def State.reportDev (s : State) (cls kind src addr : Nat) (detail : List Byte) (pit : Bool) (ess : Bool := true) : State :=
  let r := frec cls (b2n !ess) 0 0xFF kind src s.tim.now addr detail
  let s := s.enter none ess r
  if pit then s.pit 2 2 r else s

/-! Activity (R441, R445). -/

/-- Charges n units of counter k to a tally of partition p, or to its tally 0 while that tally is not open (R307). -/
def State.charge (s : State) (p tally k n : Nat) : State :=
  let t := if (Tab.get {} (s.part p).en.tallies tally).opened then tally else 0
  { s with ckw := { s.ckw with act := Tab.upd 0 s.ckw.act (((p + 1) * 2 ^ 40 + t) * 16 + k) (· + n) } }

/-- Charges n units of counter k to idle (R441). -/
def State.chargeIdle (s : State) (k n : Nat) : State :=
  { s with ckw := { s.ckw with act := Tab.upd 0 s.ckw.act k (· + n) } }

end Sys2Proof.Machine
end

