-- ==== Sys2Proof/Machine/Operands.lean ====
section
/-!
DEFINITION. The choice of a path (R64 to R67), guards (R100), operand forms and their checks (R96, R97, R102, R107, R108), results
into registers (R97), barriers and fences that complete (R69 to R71, R121), slots that become free (R62).
-/

namespace Sys2Proof.Machine

/-! Gangs. -/

/-- The sub-core of a gang (R11). -/
def subOf (g : Nat) : Nat := g / 16
/-- The core of a gang (R11). -/
def coreOf (g : Nat) : Nat := g / 64

def Gang.lane (x : Gang) (l : Nat) : Lane := Tab.get {} x.lanes l
def Gang.updLane (x : Gang) (l : Nat) (f : Lane → Lane) : Gang := { x with lanes := Tab.upd {} x.lanes l f }

/-- A live lane that waits for nothing. -/
def Gang.runnable (x : Gang) (l : Nat) : Bool := !bit x.exited l && (x.lane l).wait == .none

/-- The path of a lane (R64): runnable lanes with the same program counter. -/
def Gang.pathOf (x : Gang) (l : Nat) : Nat :=
  maskOf ((List.range 32).filter fun i => x.runnable i && (x.lane i).pc == (x.lane l).pc)

/-- The age of a path (R66). -/
def Gang.ageOf (x : Gang) (m : Nat) : Nat := (setBits 32 m).foldl (fun a l => max a (x.lane l).age) 0

/-- Among lanes taken in ascending order, the first whose path has the greatest age (R66, R67). -/
def Gang.oldest (x : Gang) : List Nat → Option Nat
  | [] => none
  | l :: t =>
    match x.oldest t with
    | some i => if x.ageOf (x.pathOf l) ≥ x.ageOf (x.pathOf i) then some l else some i
    | none => some l

/-- The paths of a gang (R64). -/
def Gang.paths (x : Gang) : List Nat := (((List.range 32).filter x.runnable).map x.pathOf).eraseDups

/-- The path that is chosen among those of the lanes of r (R65 to R67): the path that issued last while it is at no switch point and
no other path is overdue; otherwise the path of greatest age. An overdue path has the greatest age. -/
def Gang.choose (x : Gang) (r : List Nat) : Option Nat :=
  let keep := (r.filter (bit x.last)).head?
  let overdue := fun m => r.any fun l => !bit m l && decide (x.ageOf (x.pathOf l) ≥ 32)
  match x.switch, keep with
  | false, some l => if overdue (x.pathOf l) then (x.oldest r).map x.pathOf else some (x.pathOf l)
  | _, _ => (x.oldest r).map x.pathOf

/-- One issue of one instruction: the gang's number and state, the instruction and extension words, the path and the active
lanes (R100), and the path's program counter. -/
structure Ctx where
  g : Nat
  x : Gang
  w : Nat
  ext : Nat
  path : Nat
  act : Nat
  pc : Nat

/-- What an issue comes to: not ready (R64), not ready together with its whole gang (R133 to R135), a trap with its extra content (R82, R521), or the state in which the
instruction has had its effect, the lanes that jump with their targets, and whether it is a switch point by itself. -/
inductive Issue where
  | stall
  | hold
  | trap (code : Nat) (extra : List Byte)
  | ok (s : State) (jumps : List (Nat × Nat)) (switch : Bool)

/-- The active lanes, ascending. -/
def Ctx.lanes (c : Ctx) : List Nat := setBits 32 c.act

/-- EXT, and the common fields of R99. -/
def Ctx.hasExt (c : Ctx) : Bool := bit c.w 63
def Ctx.f (c : Ctx) (hi lo : Nat) : Nat := bits c.w hi lo

/-- 16 bytes of extra content (R521): bytes 0 to 7 and bytes 8 to 15. -/
def extra16 (a b : Nat) : List Byte := leBytes 8 a ++ leBytes 8 b

/-- The word's extra content: the instruction word, and the extension word when EXT is 1. -/
def Ctx.words (c : Ctx) : List Byte := extra16 c.w (if c.hasExt then c.ext else 0)
def Ctx.illegal (c : Ctx) : Issue := .trap 0x02 c.words

/-- An operand: its kind (0 vector, 1 uniform, 2 immediate, 3 reserved), first register and number of registers (R96). -/
structure Opd where
  kind : Nat
  idx : Nat
  n : Nat

/-- A reserved kind, a pair or quad that starts at a wrong number, or uniform registers above u63 (R96, R102). -/
def Opd.bad (o : Opd) : Bool :=
  decide (o.kind > 2) || (o.kind != 2 && o.n > 1 && o.idx % o.n != 0) || (o.kind == 1 && decide (o.idx + o.n > 64))

/-- Registers at VREGS or above (R96). -/
def Opd.bound (x : Gang) (o : Opd) : Bool := o.kind == 0 && decide (o.idx + o.n > x.k.vregs)

/-- A vector register of the operand, in an active lane, awaits its load (R64). -/
def Opd.awaited (c : Ctx) (o : Opd) : Bool :=
  o.kind == 0 && c.x.pend.any fun p =>
    decide (p.dst < o.idx + o.n ∧ o.idx < p.dst + (p.size + 3) / 4) && p.kind != .sem &&
    p.lanes.any fun l => bit c.act l.lane

/-- A poisoned vector register of the operand in a lane: its index and poison source address plus 1. -/
def Opd.poison (c : Ctx) (o : Opd) (l : Nat) : Option (Nat × Nat) :=
  if o.kind = 0 then
    (List.range o.n).findSome? fun i =>
      match Tab.get 0 c.x.marks ((o.idx + i) * 32 + l) with
      | 0 => none
      | a => some (o.idx + i, a)
  else none

/-- The operand's value in a lane: low register first (R96); an immediate is the extension word (R102). -/
def Opd.val (c : Ctx) (o : Opd) (l : Nat) : Nat :=
  match o.kind with
  | 2 => c.ext % 2 ^ (32 * o.n)
  | 1 => (List.range o.n).foldl (fun a i => a + (Tab.get 0 c.x.uregs (o.idx + i)).toNat * 2 ^ (32 * i)) 0
  | _ => (List.range o.n).foldl (fun a i => a + (Tab.get 0 c.x.regs ((o.idx + i) * 32 + l)).toNat * 2 ^ (32 * i)) 0

/-- The guard fields of R100: GN or PG without GE. -/
def Ctx.guardBad (c : Ctx) : Bool := !bit c.w 62 && (bit c.w 61 || c.f 60 58 != 0)
/-- Barrier, matrix and time instructions carry no guard (R100). -/
def Ctx.guarded (c : Ctx) : Bool := bit c.w 62 || bit c.w 61 || c.f 60 58 != 0

/-- The checks common to every instruction, in the order of R108: field faults, REG_BOUND, readiness of the operands, POISON
of a source in the lowest lane that meets it. Where several operands meet one cause, the first in the order A, B, C, destination is
the one named (DESIGN CHOICE, log entry 96). -/
def Ctx.check (c : Ctx) (fieldBad : Bool) (srcs dsts : List Opd) : Option Issue :=
  if c.guardBad || fieldBad || (srcs ++ dsts).any Opd.bad then some c.illegal
  else
    match (srcs ++ dsts).find? (Opd.bound c.x) with
    | some o => some (.trap 0x03 (extra16 (max o.idx c.x.k.vregs % 256) 0))
    | none =>
      if (srcs ++ dsts).any (Opd.awaited c) then some .stall
      else
        match c.lanes.findSome? fun l => srcs.findSome? fun o => o.poison c l with
        | some (i, a) => some (.trap 0x09 (extra16 i (a - 1)))
        | none => none

/-- Writes a value of n registers into a gang's vector registers of one lane, and their poison mark (0: none). -/
def Gang.setReg (x : Gang) (idx n l v mark : Nat) : Gang :=
  (List.range n).foldl (init := x) fun x i => { x with
    regs := Tab.set 0 x.regs ((idx + i) * 32 + l) (BitVec.ofNat 32 (v / 2 ^ (32 * i)))
    marks := Tab.set 0 x.marks ((idx + i) * 32 + l) mark }

/-- Writes a value of n registers into uniform registers. -/
def Gang.setUni (x : Gang) (idx n v : Nat) : Gang :=
  (List.range n).foldl (init := x) fun x i => { x with
    uregs := Tab.set 0 x.uregs (idx + i) (BitVec.ofNat 32 (v / 2 ^ (32 * i))) }

/-- Writes one bit of a predicate (R97). -/
def Gang.setPred (x : Gang) (i l : Nat) (b : Bool) : Gang :=
  { x with preds := Tab.upd 0 x.preds i fun v => if b then v ||| BitVec.ofNat 32 (2 ^ l) else v &&& ~~~ BitVec.ofNat 32 (2 ^ l) }

/-- Results into a destination (R97): each active lane's own register, or the lowest active lane's into the uniform. -/
def Gang.setDst (x : Gang) (lanes : List Nat) (d : Opd) (v : Nat → Nat) : Gang :=
  if d.kind = 1 then
    match lanes with
    | l :: _ => x.setUni d.idx d.n (v l)
    | [] => x
  else lanes.foldl (fun x l => x.setReg d.idx d.n l (v l) 0) x

/-- The gang's register file changed by the instruction, and nothing else. -/
def Ctx.done (c : Ctx) (s : State) (f : Gang → Gang) : Issue := .ok (s.updGang c.g f) [] false

/-! Format R. -/

/-- What R518 to R520 give an opcode: the registers of A, B and C (0: unused; 1: one register; 2: the width's), the kinds A
may have, the TYPE values, the greatest RM, and the destination: registers, or none for a predicate or descriptor. -/
structure RSpec where
  a : Nat := 2
  b : Nat := 2
  c : Nat := 0
  kinds : List Nat := [0, 1, 2]
  types : List Nat := [0, 1]
  rm : Nat := 0
  d : Nat := 2

/-- TYPE, RM and the width of a format R instruction. -/
def Ctx.ty (c : Ctx) : Nat := c.f 11 8
def Ctx.rm (c : Ctx) : Nat := c.f 7 6
def Ctx.wide (c : Ctx) : Nat := if c.ty = 1 then 2 else 1

/-- The source operands of a format R instruction. -/
def Ctx.src (c : Ctx) (use hi lo khi klo n : Nat) : Opd := { kind := c.f khi klo, idx := c.f hi lo, n := if use = 2 then n else 1 }
def Ctx.srcA (c : Ctx) (u n : Nat) : Opd := c.src u 41 34 17 16 n
def Ctx.srcB (c : Ctx) (u n : Nat) : Opd := c.src u 33 26 15 14 n
def Ctx.srcC (c : Ctx) (u n : Nat) : Opd := c.src u 25 18 13 12 n

/-- The sources in use. -/
def Ctx.srcs (c : Ctx) (sp : RSpec) (n : Nat) : List Opd :=
  (if sp.a = 0 then [] else [c.srcA sp.a n]) ++ (if sp.b = 0 then [] else [c.srcB sp.b n]) ++
  (if sp.c = 0 then [] else [c.srcC sp.c n])

/-- The field faults of format R (R102, R518 to R520). -/
def Ctx.rBad (c : Ctx) (sp : RSpec) (n : Nat) : Bool :=
  let imm := (c.srcs sp n).filter fun o => o.kind == 2
  !sp.types.contains c.ty || decide (c.rm > sp.rm) || c.f 4 0 != 0 ||
  (sp.a == 0 && (c.f 41 34 != 0 || c.f 17 16 != 0)) || (sp.b == 0 && (c.f 33 26 != 0 || c.f 15 14 != 0)) ||
  (sp.c == 0 && (c.f 25 18 != 0 || c.f 13 12 != 0)) ||
  (sp.a != 0 && !sp.kinds.contains (c.f 17 16)) || imm.any (fun o => o.idx != 0) ||
  decide (imm.length > 1) || (imm.isEmpty && c.hasExt) || (!imm.isEmpty && !c.hasExt) ||
  (sp.d == 0 && (c.f 49 45 != 0 || bit c.w 5))

/-- An instruction that writes a register: `f` gives the result of a lane from the width in bits and the three sources. -/
def aluSem (sp : RSpec) (f : Nat → Nat → Nat → Nat → Nat) (c : Ctx) (s : State) : Issue :=
  let n := c.wide
  let d : Opd := { kind := b2n (bit c.w 5), idx := c.f 49 42, n := if sp.d = 2 then n else 1 }
  match c.check (c.rBad sp n) (c.srcs sp n) [d] with
  | some i => i
  | none => c.done s fun x => x.setDst c.lanes d fun l =>
      f (32 * n) ((c.srcA sp.a n).val c l) ((c.srcB sp.b n).val c l) ((c.srcC sp.c n).val c l)

/-- An instruction that writes each active lane's bit of predicate D[2:0] (R97, R102). -/
def predSem (sp : RSpec) (f : Nat → Nat → Nat → Nat → Bool) (c : Ctx) (s : State) : Issue :=
  let n := c.wide
  match c.check (c.rBad sp n) (c.srcs sp n) [] with
  | some i => i
  | none => c.done s fun x => c.lanes.foldl (init := x) fun x l =>
      x.setPred (c.f 44 42) l (f (32 * n) l ((c.srcA sp.a n).val c l) ((c.srcB sp.b n).val c l))

/-! Barriers, fences and slots. -/

/-- All 32 threads have exited. -/
def Gang.done (x : Gang) : Bool := x.exited == 2 ^ 32 - 1

/-- The live lanes, ascending. -/
def Gang.liveLanes (x : Gang) : List Nat := (List.range 32).filter fun l => !bit x.exited l

/-- The gang's buffered stores. -/
def State.entriesOf (s : State) (g : Nat) : List StEntry := (s.sub (subOf g)).filter fun e => e.gang == g

/-- A store of the gang to workspace is not yet written (R71). -/
def State.wsBusy (s : State) (g : Nat) : Bool :=
  (s.entriesOf g).any fun e => match e.loc with | .ws _ _ => true | _ => false

/-- Ends a wait of the gang's lanes. -/
def Gang.release (x : Gang) (w : Wait) : Gang :=
  x.liveLanes.foldl (fun x l => if (x.lane l).wait = w then x.updLane l fun y => { y with wait := .none } else x) x

/-- bar.gang completes (R69, R71): every thread has arrived or exited, and their workspace stores are written. -/
def State.gangBar (s : State) (g : Nat) : State :=
  let x := s.gang g
  if x.liveLanes.any (fun l => (x.lane l).wait == .gangBar) && x.liveLanes.all (fun l => (x.lane l).wait == .gangBar) &&
     !s.wsBusy g
  then s.updGang g fun x => x.release .gangBar else s

def Core.bar (c : Core) (i : Nat) : NamedBar := Tab.get {} c.bars i
def State.updBar (s : State) (c i : Nat) (f : NamedBar → NamedBar) : State :=
  s.updCore c fun y => { y with bars := Tab.upd {} y.bars i f }

/-- An instance that has reached its count closes (R70). -/
def NamedBar.close (b : NamedBar) : NamedBar :=
  if b.count = some (b.arrived.length + b.gone) then { b with count := none, arrived := [], filled := b.filled ++ [b.arrived] } else b

/-- A gang's arrival at barrier i completes with count n (R70). -/
def NamedBar.arrive (b : NamedBar) (g n : Nat) : NamedBar :=
  NamedBar.close { b with
    count := some (b.count.getD n), arrived := b.arrived ++ [g], counts := Tab.set 0 b.counts g 0
    members := if b.members.contains g then b.members else b.members ++ [g] }

/-- A gang exits fully: a member counts toward the open instance and every later one (R70). -/
def NamedBar.leave (b : NamedBar) (g : Nat) : NamedBar :=
  if b.members.contains g then NamedBar.close { b with members := b.members.erase g, gone := b.gone + 1 } else b

/-- Releases the gangs of closed instances whose workspace stores are written (R70, R71). -/
def State.namedBar (s : State) (c i : Nat) : State :=
  let b := (s.core c).bar i
  let ready := b.filled.filter fun l => l.all fun g => !s.wsBusy g
  let s := s.updBar c i fun b => { b with filled := b.filled.filter fun l => l.any fun g => s.wsBusy g }
  ready.flatten.foldl (fun s g => s.updGang g fun x => x.release (.named i)) s

/-- The barrier whose arrival the gang's live lanes have made but for its recording: they all wait at one id (R70). -/
def Gang.allAt (x : Gang) : Option Nat :=
  match x.liveLanes with
  | [] => none
  | l :: t =>
    match (x.lane l).wait with
    | .named i => if t.all fun j => (x.lane j).wait == .named i then some i else none
    | _ => none

/-- Fences that have nothing earlier outstanding complete (R121, R122): a lost store sets STORE_ERR. -/
def State.fences (s : State) (g : Nat) : State :=
  let x := s.gang g
  let ld := fun l => x.pend.any fun p => p.lanes.any fun y => y.lane == l
  let st := fun l => (s.entriesOf g).any fun e => e.lane == l
  let open_ := x.holdLd ||| x.holdSt
  let keepLd := maskOf ((setBits 32 x.holdLd).filter ld)
  let keepSt := maskOf ((setBits 32 x.holdSt).filter st)
  let ended := (setBits 32 open_).filter fun l => !bit keepLd l && !bit keepSt l
  if ended.isEmpty && keepLd = x.holdLd && keepSt = x.holdSt then s
  else s.updGang g fun x => { x with
    holdLd := keepLd, holdSt := keepSt
    storeErr := x.storeErr || ended.any (bit x.lost)
    lost := maskOf ((setBits 32 x.lost).filter fun l => !ended.contains l) }

/-- A debugger's operation in progress on a gang that goes ends with RESULT FREE (R95). -/
def State.dbgGone (s : State) (x : Gang) : State := s.updFn x.dbgBy fun f => { f with dbg := { f.dbg with result := 6 } }

/-- Frees a gang's slot and its registers (R62); its launch has one live gang fewer (R297). A HALT not yet complete gives FREE (R95). -/
def State.freeGang (s : State) (g : Nat) : State :=
  let k := (s.gang g).k
  let s := if (s.gang g).mode = .halting then s.dbgGone (s.gang g) else s
  (s.updGang g fun _ => {}).updCmd k.part k.cmd fun c => { c with liveGangs := c.liveGangs - 1 }

/-- What follows an event of a gang: fences and barriers complete, and an exited gang with no buffered store leaves its
slot (R62, R69 to R71, R121). -/
def State.settle (s : State) (g : Nat) : State :=
  let s := (s.fences g).gangBar g
  let s := (List.range 16).foldl (fun s i => if ((s.core (coreOf g)).bar i).filled.isEmpty then s else s.namedBar (coreOf g) i) s
  let x := s.gang g
  if x.live && x.done && x.trap.isNone && (s.entriesOf g).isEmpty then s.freeGang g else s

/-- Issue stops on every core while the device is tripped or powering down (R465, R511), and D5 holds the core's tier. -/
def State.issueOn (s : State) (g : Nat) : Bool :=
  !s.rst.tripped && !s.rst.powering && s.rel 5 && !bit s.rst.tiersHeld (coreOf g / 144)

end Sys2Proof.Machine
end

