-- ==== Sys2Proof/Machine/Control.lean ====
section
/-!
DEFINITION. The control class (R103, R110) and undefined opcodes (R101).
-/

namespace Sys2Proof.Machine

/-- The opcodes that R101 and R518 to R520 define. -/
def opDefined (op : Nat) : Bool :=
  decide (op ≤ 0x26) || (decide (0x30 ≤ op) && decide (op ≤ 0x48)) || op == 0x50 || op == 0x51 ||
  (decide (0x60 ≤ op) && decide (op ≤ 0x68)) || (decide (0x70 ≤ op) && decide (op ≤ 0x76)) ||
  (decide (0x80 ≤ op) && decide (op ≤ 0x82)) || (decide (0x88 ≤ op) && decide (op ≤ 0x8B)) ||
  (decide (0x90 ≤ op) && decide (op ≤ 0x94)) || (decide (0xA0 ≤ op) && decide (op ≤ 0xA2))

/-- The field faults of format B (R103, R107): the register field and the displacement are zero where unused. -/
def Ctx.bBad (c : Ctx) (reg disp : Bool) : Bool :=
  c.hasExt || c.f 40 32 != 0 || (!reg && c.f 49 41 != 0) || (!disp && c.f 31 0 != 0)

/-- The register target pair of BRX and CALLX. -/
def Ctx.target (c : Ctx) : Opd := { kind := c.f 41 41, idx := c.f 49 42, n := 2 }

/-- The displacement target of BRA and CALL (R103). -/
def Ctx.dispTarget (c : Ctx) : Nat := twos 64 ((c.pc : Int) + 8 * sgn 32 (c.f 31 0))

/-- Pushes the next address on the return stacks of the active lanes; a 17th nested call raises STACK (R110). -/
def callTo (c : Ctx) (s : State) (t : Nat → Nat) : Issue :=
  if c.lanes.any fun l => decide ((c.x.lane l).stack.length ≥ 16) then .trap 0x0F (extra16 16 0)
  else
    .ok (s.updGang c.g fun x => c.lanes.foldl (init := x) fun x l =>
          x.updLane l fun y => { y with stack := (c.pc + 8) % two64 :: y.stack })
      (c.lanes.map fun l => (l, t l)) false

/-- The first active lane whose register target is not 8-byte aligned (R110). -/
def Ctx.misTarget (c : Ctx) : Option Nat :=
  (c.lanes.find? fun l => c.target.val c l % 8 != 0).map fun l => c.target.val c l

/-- BRA (R110). -/
def semBra (c : Ctx) (s : State) : Issue :=
  match c.check (c.bBad false true) [] [] with
  | some i => i
  | none => .ok s (c.lanes.map fun l => (l, c.dispTarget)) false

/-- BRX (R110). -/
def semBrx (c : Ctx) (s : State) : Issue :=
  match c.check (c.bBad true false) [c.target] [] with
  | some i => i
  | none =>
    match c.misTarget with
    | some a => .trap 0x04 (extra16 a 0)
    | none => .ok s (c.lanes.map fun l => (l, c.target.val c l)) false

/-- CALL (R110). -/
def semCall (c : Ctx) (s : State) : Issue :=
  match c.check (c.bBad false true) [] [] with
  | some i => i
  | none => callTo c s fun _ => c.dispTarget

/-- CALLX (R110). -/
def semCallx (c : Ctx) (s : State) : Issue :=
  match c.check (c.bBad true false) [c.target] [] with
  | some i => i
  | none =>
    match c.misTarget with
    | some a => .trap 0x04 (extra16 a 0)
    | none => callTo c s fun l => c.target.val c l

/-- RET (R110): an empty return stack raises STACK. -/
def semRet (c : Ctx) (s : State) : Issue :=
  match c.check (c.bBad false false) [] [] with
  | some i => i
  | none =>
    if c.lanes.any fun l => (c.x.lane l).stack.isEmpty then .trap 0x0F (extra16 0 0)
    else
      .ok (s.updGang c.g fun x => c.lanes.foldl (init := x) fun x l => x.updLane l fun y => { y with stack := y.stack.drop 1 })
        (c.lanes.map fun l => (l, (c.x.lane l).stack.headD 0)) false

/-- The extra content of BARRIER_COUNT (R521). -/
def barExtra (i : Nat) (b : NamedBar) (n : Nat) : List Byte := extra16 (i + b.count.getD 0 * 256 + n * two32) 0

/-- A gang's arrival at barrier i completes with count n, or finds an open instance of another count (R70). -/
def arriveOr (c : Ctx) (s : State) (i n : Nat) (t : State) : Issue :=
  let b := (s.core (coreOf c.g)).bar i
  match b.count with
  | some m => if m = n then .ok (t.updBar (coreOf c.g) i fun b => b.arrive c.g n) [] true else .trap 0x0C (barExtra i b n)
  | none => .ok (t.updBar (coreOf c.g) i fun b => b.arrive c.g n) [] true

/-- EXIT (R110): the active lanes exit, which may complete an arrival, or end a member gang (R69, R70). -/
def semExit (c : Ctx) (s : State) : Issue :=
  match c.check (c.bBad false false) [] [] with
  | some i => i
  | none =>
    let y := { c.x with exited := c.x.exited ||| c.act }
    let t := s.updGang c.g fun x => { x with exited := x.exited ||| c.act }
    if y.done then
      .ok ((List.range 16).foldl (init := t) fun t i =>
        if ((t.core (coreOf c.g)).bar i).members.contains c.g then t.updBar (coreOf c.g) i fun b => b.leave c.g else t) [] true
    else
      match y.allAt with
      | some i => arriveOr c s i (Tab.get 0 ((s.core (coreOf c.g)).bar i).counts c.g) t
      | none => .ok t [] true

/-- YIELD (R110). -/
def semYield (c : Ctx) (s : State) : Issue :=
  match c.check (c.bBad false false) [] [] with
  | some i => i
  | none => .ok s [] true

/-- TRAP and BRK (R110) in a path with an active lane. -/
def softTrap (code : Nat) (c : Ctx) (s : State) : Issue :=
  match c.check (c.bBad false true) [] [] with
  | some i => i
  | none => if c.act = 0 then .ok s [] false else .trap code (extra16 (c.f 31 0) 0)

/-- TRAP (R110). -/
def semTrap : Ctx → State → Issue := softTrap 0x10

/-- BRK (R110). -/
def semBrk : Ctx → State → Issue := softTrap 0x11

/-- An undefined or reserved opcode (R101). -/
def semIllegal (c : Ctx) (s : State) : Issue := if opDefined (c.f 57 50) then .ok s [] false else .trap 0x01 c.words

end Sys2Proof.Machine
end

