-- ==== Sys2Proof/Machine/Sync.lean ====
section
/-!
DEFINITION. Fences, barriers and the detection of barriers that cannot complete (R69 to R72, R121 to R123), and the special
class: time reads and the gang status word (R80, R122, R128).
-/

namespace Sys2Proof.Machine

/-- The fields of format S (R106) other than those an instruction uses are zero; `use` masks the bits in use. -/
def Ctx.sBad (c : Ctx) (use : Nat) : Bool := c.hasExt || (c.f 49 0 &&& (2 ^ 50 - 1 - use)) != 0

def fD : Nat := 0xFF * 2 ^ 42
def fA : Nat := 0xFF * 2 ^ 34
def fKA : Nat := 2 ^ 33
def fPD : Nat := 7 * 2 ^ 30
def fID : Nat := 15 * 2 ^ 26
def fSEL : Nat := 3 * 2 ^ 24
def fCOUNT : Nat := 0xFF * 2 ^ 16
def fKC : Nat := 2 ^ 15

/-- FENCE (R121): the active lanes hold their later memory instructions until it completes. -/
def semFence (c : Ctx) (s : State) : Issue :=
  match c.check (c.sBad fSEL || c.f 25 24 == 0) [] [] with
  | some i => i
  | none =>
    let sel := c.f 25 24
    c.done s fun x => { x with
      holdLd := if bit sel 0 then x.holdLd ||| c.act else x.holdLd
      holdSt := if bit sel 1 then x.holdSt ||| c.act else x.holdSt }

/-- Sets the wait of the path's lanes. -/
def Ctx.wait (c : Ctx) (s : State) (w : Wait) : State :=
  s.updGang c.g fun x => (setBits 32 c.path).foldl (fun x l => x.updLane l fun y => { y with wait := w }) x

/-- BAR.GANG (R69, R123). -/
def semBarGang (c : Ctx) (s : State) : Issue :=
  match c.check (c.sBad 0 || c.guarded) [] [] with
  | some i => i
  | none => .ok (c.wait s .gangBar) [] true

/-- BAR.NAMED (R70, R123). -/
def semBarNamed (c : Ctx) (s : State) : Issue :=
  let id := c.f 29 26
  let a : Opd := { kind := c.f 33 33, idx := c.f 41 34, n := 1 }
  let kc := bit c.w 15
  let bad := c.guarded || c.sBad (fID + fKC + if kc then fA + fKA else fCOUNT) || (kc && !bit c.w 33)
  match c.check bad (if kc then [a] else []) [] with
  | some i => i
  | none =>
    let n := if kc then a.val c 0 else c.f 23 16
    let b := (s.core (coreOf c.g)).bar id
    let given := Tab.get 0 b.counts c.g
    if n = 0 || n > 64 || (given != 0 && given != n) then .trap 0x0C (barExtra id b n)
    else
      let t := (c.wait s (.named id)).updBar (coreOf c.g) id fun b => { b with counts := Tab.set 0 b.counts c.g n }
      if (t.gang c.g).allAt = some id then arriveOr c s id n t else .ok t [] true

/-- Where a gang's live threads wait (R72): a mask of named ids, bit 16 for bar.gang; none unless all of them wait there. -/
def Gang.barMask (x : Gang) : Option Nat :=
  x.liveLanes.foldl (init := some 0) fun m l =>
    match m, (x.lane l).wait with
    | some m, .gangBar => some (m ||| 2 ^ 16)
    | some m, .named i => some (m ||| 2 ^ i)
    | _, _ => none

/-- A split gang (R72): all its live threads wait at barriers, at two or more of them. -/
def Gang.split (x : Gang) : Bool :=
  !x.liveLanes.isEmpty && (match x.barMask with | some m => decide (popc 17 m ≥ 2) | none => false)

/-- Traps a gang with BARRIER_DEADLOCK of a case (R72, R521); the path reported is that of its lowest live lane (log entry
10). -/
def State.deadlock (s : State) (g case : Nat) : State :=
  s.updGang g fun x =>
    match x.liveLanes with
    | [] => x
    | l :: _ =>
      let pc := (x.lane l).pc
      let mask := maskOf (x.liveLanes.filter fun i => (x.lane i).pc == pc)
      { x with trap := some { code := 0x0B, pc := pc, mask := mask, extra := extra16 (case + x.barMask.getD 0 * two32) 0 } }

/-- A gang is in the course of a trap or not running. -/
def Gang.held (x : Gang) : Bool := x.mode != .running

/-- The cores of a launch, ascending: those of its district when it started (R275). -/
def State.launchCores (s : State) (p k : Nat) : List Nat := setBits 576 (s.cmd p k).cores

/-- The register file of a sub-core has room for one more gang of a number of registers (R60). -/
def State.regRoom (s : State) (b vregs : Nat) : Bool :=
  let used := ((List.range 16).map fun i => let x := s.gang (16 * b + i); if x.live then x.k.vregs * 128 else 0).sum
  decide (used + vregs * 128 ≤ 131072)

/-- A core takes a gang of command k: it runs that kernel, or holds no gang of another and no run (R141, R296). -/
def State.coreTakes (s : State) (c p k : Nat) : Bool :=
  (s.core c).kern == some (p, k) ||
  (((s.core c).units.all fun e => e.2.runs.isEmpty) && (List.range 64).all fun i => !(s.gang (64 * c + i)).live)

/-- The next gang of command k of partition p may start in slot g (R60, R141, R296). -/
def State.gangFits (s : State) (p k g : Nat) : Bool :=
  let c := s.cmd p k
  c.wait == .gangs && decide (c.startedGangs < c.gangs) && s.issueOn g && (s.launchCores p k).contains (coreOf g) && !(s.gang g).live &&
  s.regRoom (subOf g) c.kern.vregs && s.coreTakes (coreOf g) p k

/-- An open instance of core y can still reach its count (R72): gangs of the kernel's launch may yet start there and arrive. -/
def State.mayArrive (s : State) (y : Nat) : Bool :=
  match (s.core y).kern with
  | some (p, k) =>
    let left := (s.cmd p k).gangs - (s.cmd p k).startedGangs
    ((List.range 64).any fun i => s.gangFits p k (y * 64 + i)) && (List.range 16).any fun i =>
      match ((s.core y).bar i).count with
      | some n => decide (n ≤ ((s.core y).bar i).arrived.length + ((s.core y).bar i).gone + left)
      | none => false
  | none => false

/-- BARRIER_DEADLOCK (R72): case 1 of each running split gang; else case 2 of the kernel on the core. -/
def execBarrierDeadlock (core : Nat) (s : State) : Host.Outcome State Fault Refusal :=
  let live := ((List.range 64).map (core * 64 + ·)).filter fun g => (s.gang g).live && !(s.gang g).done
  let split := live.filter fun g => (s.gang g).split && !(s.gang g).held && (s.gang g).trap.isNone
  let bars := (List.range 16).map fun i => (s.core core).bar i
  let arrived := fun g => bars.any fun b => b.arrived.contains g
  if !split.isEmpty then .next (split.foldl (fun s g => s.deadlock g 1) s)
  else if (live.all fun g => (s.gang g).split || arrived g) && live.any arrived && live.all (fun g => !(s.gang g).held) &&
          live.all (fun g => (s.gang g).trap.isNone) && !s.mayArrive core
  then .next (live.foldl (fun s g => s.deadlock g 2) s)
  else .next s

/-- TIME.RD (R128). -/
def semTimeRd (c : Ctx) (s : State) : Issue :=
  let sel := c.f 25 24
  let d : Opd := { kind := c.f 33 33, idx := c.f 49 42, n := if sel = 1 then 1 else 2 }
  match c.check (c.guarded || c.sBad (fD + fKA + fSEL) || sel == 3) [] [d] with
  | some i => i
  | none =>
    let v := match sel with
      | 0 => s.tim.now
      | 1 => s.tim.frac
      | _ => s.clk - s.rst.tierAt.getD (coreOf c.g / 144) 0
    c.done s fun x => x.setDst c.lanes d fun _ => v

/-- The gang status word (R80). -/
def Gang.status (x : Gang) : Nat := pack [(0, b2n x.storeErr), (1, b2n !x.marks.isEmpty)]

/-- GST.RD (R122): it follows a fence of its lanes (log entry 11). -/
def semGstRd (c : Ctx) (s : State) : Issue :=
  let d : Opd := { kind := c.f 33 33, idx := c.f 49 42, n := 1 }
  match c.check (c.sBad (fD + fKA)) [] [d] with
  | some i => i
  | none =>
    if c.path &&& (c.x.holdLd ||| c.x.holdSt) != 0 then .stall
    else c.done s fun x => x.setDst c.lanes d fun _ => c.x.status

/-- GST.CLR (R122): STORE_ERR clears where COUNT[0] is set. -/
def semGstClr (c : Ctx) (s : State) : Issue :=
  match c.check (c.sBad fCOUNT || c.f 23 18 != 0) [] [] with
  | some i => i
  | none => c.done s fun x => if c.act != 0 && bit c.w 16 then { x with storeErr := false } else x

end Sys2Proof.Machine
end

