-- ==== Sys2Proof/Machine/Home.lean ====
section
/-!
DEFINITION. Memory at the home slices: workspace and L2 scratch (R74, R176, R229), the L2 and its write-combining buffers
(R209, R210, R226, R227), the check code (R211 to R214), uncorrectable lines (R217, R220 to R222), prefetch (R232, R233).
-/

namespace Sys2Proof.Machine

/-! Workspace and L2 scratch; poison lies on 8-byte elements (R191, R196). -/

def wsKey (core a : Nat) : Nat := core * 2 ^ 21 + a
def l2sKey (p a : Nat) : Nat := p * 2 ^ 28 + a

/-- The 8-byte elements that n bytes from key k touch. -/
def granules (k n : Nat) : List Nat := if n = 0 then [] else (List.range ((k + n - 1) / 8 + 1 - k / 8)).map (k / 8 + ·)

/-- Poison marks after a write of n bytes at key k: marked by poisoned data; a whole element written clears its mark. -/
def markWrite (t : Tab Bool) (k n : Nat) (poison : Bool) : Tab Bool :=
  (granules k n).foldl (init := t) fun t g =>
    if poison then Tab.set false t g true
    else if k ≤ 8 * g && 8 * g + 8 ≤ k + n then Tab.set false t g false else t

def State.wsRead (s : State) (c a n : Nat) : List Byte := s.mem.ws.read (wsKey c a) n
def State.wsPoison (s : State) (c a n : Nat) : Bool := (granules (wsKey c a) n).any (Tab.get false s.mem.wsPoison)
def State.wsWrite (s : State) (c a : Nat) (d : List Byte) (poison : Bool := false) : State :=
  s.updMem fun m => { m with
    ws := m.ws.write (wsKey c a) d, wsPoison := markWrite m.wsPoison (wsKey c a) d.length poison }
def State.l2sRead (s : State) (p a n : Nat) : List Byte := s.mem.l2s.read (l2sKey p a) n
def State.l2sPoison (s : State) (p a n : Nat) : Bool := (granules (l2sKey p a) n).any (Tab.get false s.mem.l2sPoison)
def State.l2sWrite (s : State) (p a : Nat) (d : List Byte) (poison : Bool := false) : State :=
  s.updMem fun m => { m with
    l2s := m.l2s.write (l2sKey p a) d, l2sPoison := markWrite m.l2sPoison (l2sKey p a) d.length poison }

/-- Where offset o of the scratch of a mask of ways lies (R229): slice, way and set. -/
def scratchPlace (mask o : Nat) : Nat × Nat × Nat :=
  let u := o / 65536 * 256 + o % 256
  (o / 256 % 256, (setBits 16 mask).getD (u / 65536) 0, u / 128 % 512)

/-- The number under which a disturbance names a line of an L2 data array (R230; log entry 24). -/
def arrayLine (slice way set : Nat) : Nat := 2 ^ 34 + (slice * 16 + way) * 512 + set

/-- The size of a partition's L2 scratch (R229). -/
def State.scratchSize (s : State) (p : Nat) : Nat := popc 16 (s.sv.scratch p) * 2 ^ 24

/-! The L2 (R226 to R229) and the write-combining buffers (R210). A line is numbered by its address / 128. -/

/-- The generator's next state (R227). -/
def l2Step (x : Nat) : Nat :=
  let b := (x ^^^ (x / 4) ^^^ (x / 8) ^^^ (x / 32)) % 2
  x / 2 + b * 2 ^ 15

/-- Ways held by scratch (R229). -/
def State.scratchWays (s : State) : Nat := s.sv.parts.foldl (fun m p => m ||| s.sv.scratch p) 0

/-- The way that an allocation of class c takes in a set (R227); none: no allocation. -/
def State.l2Victim (s : State) (sl : Slice) (set c : Nat) : Option Nat :=
  let a := setBits 16 (s.sv.wayMask c &&& (0xFFFF - s.scratchWays))
  match a.find? fun w => (sl.way set w).line.isNone with
  | some w => some w
  | none => (a.find? fun w => decide (sl.lfsr % 16 ≤ w)).or a.head?

/-- The 32-byte accesses with which a leaving entry is written, and read where a codeword is partly written (R210). -/
def wcBursts (mask : Nat) : Nat :=
  ((List.range 4).map fun i =>
    let m := bits mask (32 * i + 31) (32 * i)
    let part := fun (h : Nat) => h != 0 && h != 0xFFFF
    if m = 0 then 0 else if part (m % 65536) || part (m / 65536) then 2 else 1).sum

/-- The L2 or a write-combining buffer holds the line dirty (R215). -/
def State.dirtyLine (s : State) (line : Nat) : Bool :=
  let sl := Tab.get {} s.mem.slices (l2Slice line)
  (match sl.find line with | some w => (sl.way (l2Set line) w).dirty != 0 | none => false) ||
  sl.wc.any fun e => e.line == line

/-! Disturbed symbols (R211, R230). -/

/-- The data bits that errors of a codeword invert, and that its correction inverts back (R211): the bytes to XOR. -/
def flipBytes (es : List (Nat × Nat)) : List Byte :=
  (List.range 16).map fun i =>
    (es.filter fun e => decide (e.1 < 32)).foldl (init := 0#8) fun b e =>
      -- byte 4b + L/8 carries lane L in beat b
      if e.1 / 8 = i % 4 ∧ bit e.2 (i / 4) then b ^^^ BitVec.ofNat 8 (2 ^ (e.1 % 8)) else b

/-- Disturbed symbols join those that lie in the arrays (R211, R230; log entry 24). -/
def State.disturb (s : State) (l : List Flip) : State :=
  l.foldl (fun s f => if s.mem.flips.contains f then s else s.updMem fun m => { m with flips := m.flips ++ [f] }) s

/-! Uncorrectable lines. -/

/-- The partition whose pool's seams hold a page (R217). -/
def State.holder (s : State) (ch page : Nat) : Option Nat :=
  s.parts.findSome? fun e =>
    let has := fun (d : SeamDef) => d.frames.any fun f => f.2 == page + 1 && d.chans[f.1 % d.chans.length]? == some ch
    if e.2.plc.seams.any fun x => x.2.region.isNone && (has x.2.d || (match x.2.goal with | some y => has y.1 | none => false))
    then some e.1 else none

/-- A region's state number (R237). -/
def RegState.num : RegState → Nat
  | .absent => 0 | .empty => 1 | .loading => 2 | .guarded => 3 | .exposed => 4 | .unguarded => 5 | .condemned => 6

/-- A region becomes condemned (R222): records to each mapping partition, the device ring and the Pit Log. -/
def State.condemn (s : State) (r : Nat) : State :=
  let prev := (s.region r).state.num
  let s := s.updRegion r fun x => { x with state := .condemned }
  let ps := (s.parts.filter fun e => e.2.plc.regionMaps.any fun m => m.2.2 == r).map (·.1)
  let s := ps.foldl (fun s p => s.report p 0x0006 9 r 0 (leBytes 1 prev)) s
  s.reportDev 0x0006 9 r 0 (leBytes 1 prev) true

/-- The DETAIL of MEM_UNCORRECTABLE from a channel (R479): lowest codeword, its syndrome, SCRATCH, the mask. -/
def ueDetail (cws : List (Nat × List Nat)) : List Byte :=
  match cws with
  | [] => []
  | (k, sy) :: _ => leBytes 4 k ++ (sy.map (BitVec.ofNat 8)) ++ leBytes 2 0 ++ leBytes 2 (maskOf (cws.map (·.1)))

/-- Uncorrectable codewords of a channel count (R235, R236). -/
def State.countUe (s : State) (ch n : Nat) : State :=
  (s.updChan ch fun c => { c with ue := satAdd 0xFF c.ue n }).updMem fun m => { m with ueTotal := satAdd 0xFFFFFFFF m.ueTotal n }

/-- The MEM_UNCORRECTABLE record of a line of device memory, and the Pit Log's (R217, R230). -/
def State.ueRecord (s : State) (kind src a : Nat) (d : List Byte) : State :=
  match s.holder (paChan a) (paPage a) with
  | some p => (s.report p 0x0005 kind src a d).pit 2 2 (frec 0x0005 0 0 p kind src s.tim.now a d)
  | none => s.reportDev 0x0005 kind src a d true

/-- An uncorrectable line outside guarded regions (R217): poisoned, and recorded once until it is rewritten. -/
def State.ueLine (s : State) (a : Nat) (cws : List (Nat × List Nat)) : State :=
  let a := a / 128 * 128
  let s := s.setPoison a true
  if Tab.get false s.mem.found (paLine a) then s
  else (s.updMem fun m => { m with found := Tab.set false m.found (paLine a) true }).ueRecord 4 (paChan a) a (ueDetail cws)

/-- The repair of R220: the line is rewritten from its other copy. -/
def State.repairLine (s : State) (r a : Nat) : State :=
  let a := a / 128 * 128
  let s := s.updMem fun m => { m with
    dev := m.dev.write a (m.dev.read (copyB a) 128), guardFixes := satAdd 0xFFFFFFFF m.guardFixes 1 }
  let s := (s.setPoison a false).updRegion r fun x => { x with fixes := satAdd 0xFFFFFFFF x.fixes 1 }
  s.pit 3 2 (padTo 64 (leBytes 2 r ++ leBytes 6 0 ++ leBytes 8 a ++ leBytes 1 (b2n (bit a 39))))

/-- An uncorrectable read of a line (R217, R220, R221); `other`: the other copy's codewords read well too. -/
def State.uncorrectable (s : State) (a : Nat) (cws : List (Nat × List Nat)) (other : Bool) : State :=
  let s := s.countUe (paChan a) cws.length
  match s.regionAt a with
  | none => s.ueLine a cws
  | some r =>
    let g := s.guardedAt a
    let b := copyB a
    let st := (s.region r).state
    if g && other && !s.deadAt b && Tab.get 0 s.mem.poison (paLine b) = 0 && st != .condemned then s.repairLine r a
    else
      let s := if g then s.setPoison a true else s.ueLine a cws
      if st == .guarded || st == .exposed || st == .unguarded then s.condemn r else s

/-! Channels held and dead (R223 to R225). -/

/-- No shot window is to come: no cadence, or one that holds no window (R216, R223, R335). -/
def State.noWindows (s : State) : Bool :=
  match s.tim.cad.live with
  | none => true
  | some c => !(List.range c.count).any fun k => bits (Tab.get 0 c.slots k) 31 28 == 3

/-- The operation due on a channel. -/
def Chan.dueOp (c : Chan) : ChanOp := if c.due != .none then c.due else if c.failed.isEmpty then .none else .repair

/-- The time an operation needs, in ns. -/
def ChanOp.need : ChanOp → Nat
  | .repair => 10000
  | _ => 3000

/-- The channels of a stack. -/
def stackOf (ch : Nat) : List Nat := (List.range 32).map (ch / 32 * 32 + ·)

/-- A channel of the stack is held. -/
def State.stackHeld (s : State) (ch : Nat) : Bool := (stackOf ch).any fun c => (s.chan c).state == .held

/-- Holds a channel for an operation. -/
def State.hold (s : State) (ch : Nat) (op : ChanOp) : State :=
  s.updChan ch fun c => { c with state := .held, hold := op, due := if op = .repair then c.due else .none }

/-- Holds the lowest channel of the stack whose due operation satisfies `p`, when none of the stack is held. -/
def State.holdNext (s : State) (ch : Nat) (p : ChanOp → Bool) : State :=
  if s.stackHeld ch then s
  else
    match (stackOf ch).find? fun c => (s.chan c).state == .live && (s.chan c).dueOp != .none && p (s.chan c).dueOp with
    | some c => s.hold c (s.chan c).dueOp
    | none => s

/-- What starts at once: with no window to come, any operation; an urgent retrain in any case. -/
def State.holdNow (s : State) (ch : Nat) : State :=
  let urgent := s.holdNext ch (· == .urgent)
  if s.noWindows then urgent.holdNext ch fun _ => true else urgent

/-! The re-placement of seams after a channel's death (R278). -/

/-- L as a sum of distinct powers of two over the remaining members (R278): the new seams' members and stride. -/
def splitPow2 (stride : Nat) : Nat → List Nat → List (List Nat × Nat)
  | 0, _ => []
  | f + 1, l =>
    if l.isEmpty then []
    else
      let n := 2 ^ Nat.log2 l.length
      (l.take n, stride) :: splitPow2 stride f (l.drop n)

/-- A seam number that nothing uses. -/
def State.seamNumber (s : State) (p : Nat) : Option Nat :=
  (List.range 256).find? fun i => (s.seam p i).d.chans.isEmpty && (s.seam p i).region.isNone

/-- New seams of a pool; none when numbers run out (log entry 113). -/
def State.newSeams (p pool : Nat) : List (List Nat × Nat) → State → Option (List Nat × State)
  | [], s => some ([], s)
  | (chans, stride) :: t, s =>
    match s.seamNumber p with
    | none => none
    | some i =>
      (State.newSeams p pool t (s.updSeam p i fun x => { x with d := { chans := chans, stride := stride }, pool := pool })).map
        fun (l, s) => (i :: l, s)

/-- A seam that a move was to enter, and that holds no page, gives its number back. -/
def State.dropEmpty (s : State) (p i : Nat) : State :=
  if (s.seam p i).used.isEmpty && (s.seam p i).region.isNone then s.updSeam p i fun x => { grp := x.grp } else s

/-- The seam that takes page r of a run (R278): the first pages go to the first seam, as many as it has members, then to the next. -/
def State.dealTo (s : State) (p : Nat) (dest : List Nat) (r : Nat) : Option Nat :=
  let size := fun (i : Nat) => (s.seam p i).d.chans.length
  let rec pick : List Nat → Nat → Option Nat
    | [], _ => none
    | i :: t, j => if j < size i then some i else pick t (j - size i)
  let l := (dest.map size).sum
  if l = 0 then none else pick dest (r % l)

/-- The page lists of a partition that lie in seams, each in its virtual order: tensors, replicas, a replica being built, conveyor
buffers, and the pages that groups back. -/
def State.pageLists (s : State) (p : Nat) : List (List (Nat × Nat)) :=
  let plc := (s.part p).plc
  let leaf := fun (k : Nat) => let w := Tab.get 0 (s.part p).table k; (bits w 63 56, bits w 39 16)
  (plc.tensors.flatMap fun e =>
    [e.2.pages] ++ (e.2.replicas.map fun r => if r.scratch then [] else r.pages) ++ [(e.2.move.map (·.built)).getD []]) ++
  (plc.conveyors.map fun e => e.2.pages) ++
  (List.range 16).map fun g => (plc.groupPages.filter fun e => e.2 == g + 1).map fun e => leaf e.1

/-- A page of a seam is some object's. -/
def State.owned (s : State) (p i t : Nat) : Bool := (s.pageLists p).any fun l => l.contains (i, t)

/-- The re-placement of one seam that holds a dead channel (R278). Groups that a move under R280 has already taken off it stay, unless
their new definition holds the channel (R283). -/
def State.reseam (s : State) (p i ch : Nat) : State :=
  let x := s.seam p i
  let old := x.d.chans.contains ch && (match x.goal with | some (_, m) => x.used.any fun e => decide (m ≤ e.1) | none => true)
  let new := match x.goal with | some (d, _) => d.chans.contains ch | none => false
  if x.region.isSome || !(old || new) then s
  else
    let d := if old then x.d else (x.goal.map (·.1)).getD x.d
    let left := d.chans.filter fun c => (s.chan c).state != .dead
    let goes := fun (q : Nat × Nat) => q.1 == i && (new || (match x.goal with | some (_, m) => decide (m ≤ q.2) | none => true))
    let enters := fun (y : Tensor) => match y.move with | some m => m.dest.contains i | none => false
    let s := x.deal.foldl (fun s j => s.dropEmpty p j) (s.updSeam p i fun y => { y with deal := [], plan := [] })
    if !((s.pageLists p).any fun l => l.any goes) && !((s.part p).plc.tensors.any fun e => enters e.2) then s.dropEmpty p i
    else
    match State.newSeams p x.pool (splitPow2 d.stride 10 left) s with
    | none => s
    | some (ids, s) =>
      let plan := (s.pageLists p).flatMap fun l =>
        (l.filter goes).zipIdx.filterMap fun e => (s.dealTo p ids e.2).map fun j => (e.1.2, j)
      -- a tensor on its way out of the seam goes with it; one on its way in goes to the new seams
      let out := fun (y : Tensor) (m : Move) => m.kind = .reseam && (y.pages.drop m.done).any (·.1 == i)
      let turn := fun (_ : Nat) (y : Tensor) =>
        match y.move with
        | some m =>
          if out y m then { y with move := none }
          else { y with move := some { m with dest := m.dest.flatMap fun j => if j = i then ids else [j] } }
        | none => y
      let lost := (s.part p).plc.tensors.flatMap fun e => match e.2.move with | some m => if out e.2 m then m.dest else [] | none => []
      let s := s.updPlc p fun y => { y with tensors := Tab.adjust {} turn y.tensors }
      (lost.foldl (fun s j => s.dropEmpty p j) s).updSeam p i fun y => { y with deal := ids, plan := plan }

/-- A channel has died (R278): each seam that holds it is due for a forced move. -/
def State.deathMoves (s : State) (ch : Nat) : State :=
  s.parts.foldl (init := s) fun s e => e.2.plc.seams.foldl (init := s) fun s x => s.reseam e.1 x.1 ch

/-- A channel dies (R225), with the cause of R480. -/
def State.channelDies (s : State) (ch cause : Nat) : State :=
  let on := fun (line : Nat) => line / 2 ^ 24 == ch
  let way := fun (_ : Nat) (w : L2Way) => match w.line with | some l => if on l then ({} : L2Way) else w | none => w
  let slice := fun (sl : Slice) => { sl with ways := Tab.adjust {} way sl.ways, wc := sl.wc.filter fun e => !on e.line }
  let region := fun (_ : Nat) (r : Region) =>
    if r.state = .guarded && r.frames.any (fun f => f.1 == ch || f.1 ^^^ 256 == ch) then { r with state := .exposed } else r
  let s := s.updChan ch fun c => { c with state := .dead, hold := .none, due := .none, failed := [] }
  let s := s.updMem fun m => { m with slices := Tab.upd {} m.slices (ch / 2) slice, regions := Tab.adjust {} region m.regions }
  let s := s.reportDev 0x0007 4 ch 0 (leBytes 1 cause) true
  let ps := s.parts.filter fun e => e.2.plc.seams.any fun x => x.2.region.isNone && x.2.d.chans.contains ch
  let s := ps.foldl (fun s e => s.report e.1 0x0007 4 ch 0 (leBytes 1 cause)) s
  (s.deathMoves ch).holdNow ch

/-- A lane fails (R223, R224): a repair is due while its pseudo-channel has a spare; a second lane without one is the
channel's death. -/
def State.laneFails (s : State) (ch lane : Nat) : State :=
  let c := s.chan ch
  let same := fun (x : Nat) => x / 36 == lane / 36
  if c.failed.contains lane || c.bare.contains lane then s
  else if c.spares.getD (lane / 36) 0 + (c.failed.filter same).length < 2 then
    (s.updChan ch fun c => { c with failed := c.failed ++ [lane] }).holdNow ch
  else
    let s := s.updChan ch fun c => { c with bare := c.bare ++ [lane] }
    if c.bare.any same then s.channelDies ch 3 else s

/-- Counts a corrected symbol error, toward lane repair too: 64 of one symbol within 1 s (R213, R223, R236). -/
def State.countCe (s : State) (line sym : Nat) : State :=
  let ch := line / 2 ^ 24
  let lane := line % 2 * 36 + sym
  let s := s.updMem fun m => { m with ceTotal := satAdd 0xFFFFFFFF m.ceTotal 1 }
  let s := s.updChan ch fun c => { c with
    ce := satAdd 0xFFFF c.ce 1, syms := (c.syms.filter fun e => decide (s.clk < e.2 + 1000000000)) ++ [(lane, s.clk)] }
  if ((s.chan ch).syms.filter fun e => e.1 == lane).length ≥ 64 then s.laneFails ch lane else s

/-- One poisoned codeword of a line, or one that is so no longer. -/
def State.setWord (s : State) (line k : Nat) (b : Bool) : State :=
  s.updMem fun m => { m with poison := Tab.upd 0 m.poison line fun v => v - (if bit v k then 2 ^ k else 0) + if b then 2 ^ k else 0 }

/-- The disturbed symbols of a codeword are gone: it has been written anew. -/
def State.mend (s : State) (line k : Nat) : State :=
  s.updMem fun m => { m with flips := m.flips.filter fun f => !(f.line == line && f.cw == k) }

/-- A codeword is read (R213): `keep` masks the bytes that stand unread in front of it. One that is not uncorrectable leaves the data that
its decoding delivers, and whether it is poison. -/
def State.readWord (s : State) (line k keep : Nat) : State :=
  let raw := ((s.lineFlips line).filter fun f => f.cw == k).map fun f => (f.sym, f.err)
  let put := fun (s : State) (l : List (Nat × Nat)) =>
    let x := (flipBytes l).mapIdx fun i b => if bit keep i then 0#8 else b
    if x.all (· == 0#8) then s
    else (s.updMem fun m => { m with
      dev := m.dev.write (line * 128 + 16 * k) (List.zipWith (· ^^^ ·) (m.dev.read (line * 128 + 16 * k) 16) x) }).mend line k
  match verdict (s.syndromeOf line k) with
  | .clean => (put s raw).setWord line k false
  | .single i e => ((put s (raw ++ [(i, e)])).setWord line k false).countCe line i
  | .poison => (put s raw).setWord line k true
  | .bad => s

/-- A channel read of a line meets the errors that lie there (R213, R217). -/
def State.channelRead (s : State) (line : Nat) : State :=
  if s.deadAt (line * 128) then s
  else
    let bad := s.badWords line
    let s := (List.range 8).foldl (fun s k => s.readWord line k 0) s
    if bad.isEmpty then s else s.uncorrectable (line * 128) bad (s.badWords (paLine (copyB (line * 128)))).isEmpty

/-! The L2 data arrays (R230) and the lines that leave a slice (R209, R210). -/

/-- Words of a data-array line are read: single-bit errors are corrected and counted, words with more are counted and given back. -/
def State.arrayMeet (s : State) (loc words : Nat) : List Nat × State :=
  let word := fun (f : Flip) => f.cw * 2 + f.sym / 18
  let hit := (s.lineFlips loc).filter fun f => bit words (word f)
  if hit.isEmpty then ([], s)
  else
    let bits_ := fun (w : Nat) => ((hit.filter fun f => word f == w).map fun f => popc 4 f.err).sum
    let one := (List.range 16).filter fun w => bits_ w == 1
    let more := (List.range 16).filter fun w => decide (bits_ w ≥ 2)
    (more, s.updMem fun m => { m with
      ceTotal := satAdd 0xFFFFFFFF m.ceTotal one.length, ueTotal := satAdd 0xFFFFFFFF m.ueTotal more.length
      flips := m.flips.filter fun f => !(f.line == loc && bit words (word f)) })

/-- The DETAIL of MEM_UNCORRECTABLE from an L2 slice (R479); the code's syndrome is not stated. -/
def arrayDetail (words : List Nat) (scratch : Bool) : List Byte :=
  leBytes 4 (words.headD 0) ++ leBytes 4 (Config.secded words % 256) ++ leBytes 2 (b2n scratch) ++ leBytes 2 (maskOf words)

/-- A dirty line has a double-bit error in its slice (R230). -/
def State.arrayBad (s : State) (line : Nat) (words : List Nat) : State :=
  if words.isEmpty then s else (s.setPoison (line * 128) true).ueRecord 5 (l2Slice line) (line * 128) (arrayDetail words false)

/-- n bytes of a partition's scratch are read (R230): a double-bit error poisons the line, with a record. -/
def State.scratchMeet (s : State) (p a n : Nat) : State :=
  if s.mem.flips.isEmpty then s
  else
    let (sl, w, set) := scratchPlace (s.sv.scratch p) a
    let (bad, s) := s.arrayMeet (arrayLine sl w set) (maskOf ((granules (a % 128) n).filter (· < 16)))
    if bad.isEmpty then s
    else
      let k := l2sKey p (a / 128 * 128)
      let s := s.updMem fun m => { m with l2sPoison := markWrite m.l2sPoison k 128 true }
      let d := arrayDetail bad true
      (s.report p 0x0005 5 sl a d).pit 2 2 (frec 0x0005 0 0 p 5 sl s.tim.now a d)

/-- A leaving entry is written, codeword by codeword (R210): a whole one as it stands, without a read; a part is read and merged. -/
def State.wcLeave (s : State) (e : WcEntry) : State :=
  if s.deadAt (e.line * 128) then s
  else
    let part := fun (k : Nat) => bits e.mask (16 * k + 15) (16 * k)
    let bad := (s.badWords e.line).filter fun w => part w.1 != 0 && part w.1 != 0xFFFF
    let s := (List.range 8).foldl (init := s.chargeIdle 8 (wcBursts e.mask)) fun s k =>
      let c := bits (Tab.get 0 s.mem.cover e.line) (16 * k + 15) (16 * k)
      if part k = 0 then s
      else if part k = 0xFFFF then (let s := s.mend e.line k; if c = 0xFFFF then s.setWord e.line k false else s)
      else (s.readWord e.line k (part k)).mend e.line k
    if bad.isEmpty then s else s.uncorrectable (e.line * 128) bad (s.badWords (paLine (copyB (e.line * 128)))).isEmpty

/-- The channel of a line is held (R223). -/
def State.chanHeld (s : State) (line : Nat) : Bool := (s.chan (line / 2 ^ 24)).state == .held

/-- A dirty line passes to the write-combining buffer (R209, R210): the entries that leave, and the buffer. An entry of a held channel
stays (R238). -/
def wcEnter (held : Nat → Bool) (wc : List WcEntry) (line mask : Nat) : List WcEntry × List WcEntry :=
  let had := ((wc.find? fun e => e.line == line).map (·.mask)).getD 0
  let e : WcEntry := { line := line, mask := had ||| mask }
  if e.mask = 2 ^ 128 - 1 && !held line then ([e], wc.filter fun x => x.line != line)
  else if had != 0 then ([], wc.map fun x => if x.line = line then e else x)
  else if wc.length < 64 then ([], wc ++ [e])
  else
    match wc.findIdx? fun x => !held x.line with
    | some i => (wc[i]?.toList, wc.eraseIdx i ++ [e])
    | none => ([], wc ++ [e])

/-- The buffer of a slice is full of entries of held channels: the slice holds further accesses (R15, R238). -/
def State.wcStuck (s : State) (slice : Nat) : Bool :=
  let wc := (Tab.get {} s.mem.slices slice).wc
  decide (wc.length ≥ 64) && wc.all fun e => s.chanHeld e.line

/-- A line is written back: it enters the buffer. -/
def State.writeBack (s : State) (line mask : Nat) : State :=
  let i := l2Slice line
  let (out, wc) := wcEnter s.chanHeld (Tab.get {} s.mem.slices i).wc line mask
  let s := s.updMem fun m => { m with slices := Tab.upd {} m.slices i fun sl => { sl with wc := wc } }
  out.foldl (fun s e => s.wcLeave e) s

/-- Allocates a line with the bytes written so far (R209, R227); a dirty line that leaves is read from the array (R230). -/
def State.l2Alloc (s : State) (c line dirty : Nat) : State :=
  let n := l2Slice line
  let set := l2Set line
  let sl := Tab.get {} s.mem.slices n
  match s.l2Victim sl set c with
  | none => if dirty = 0 then s else s.wcLeave { line := line, mask := dirty }
  | some w =>
    let old := sl.way set w
    let part := dirty != 0 && dirty != 2 ^ 128 - 1
    let s := match old.line with
      | some l =>
        if old.dirty = 0 then s
        else
          let (bad, s) := s.arrayMeet (arrayLine n w set) (maskOf ((List.range 16).filter fun i => bits old.dirty (8 * i + 7) (8 * i) != 0))
          (s.arrayBad l bad).writeBack l old.dirty
      | none => s
    s.updMem fun m => { m with
      flips := m.flips.filter fun f => f.line != arrayLine n w set
      slices := Tab.upd {} m.slices n fun x => { (x.setWay set w { line := some line, dirty := dirty, partialFill := part }) with
        lfsr := l2Step x.lfsr } }

/-- A read at the home slice by class c (R209, R210, R230): whether the channel is read, and the slice after it. -/
def State.l2Read (s : State) (c line : Nat) : Bool × State :=
  let n := l2Slice line
  let sl := Tab.get {} s.mem.slices n
  match sl.find line with
  | some w =>
    let v := sl.way (l2Set line) w
    let (bad, s) := s.arrayMeet (arrayLine n w (l2Set line)) 0xFFFF
    if v.partialFill then
      (true, (s.arrayBad line bad).updMem fun m => { m with
        slices := Tab.upd {} m.slices n fun x => x.setWay (l2Set line) w { v with partialFill := false } })
    else if v.dirty = 0 then (!bad.isEmpty, s)
    else (false, s.arrayBad line bad)
  | none => (true, s.l2Alloc c line 0)

/-- A write of n bytes within a line at the home slice by class c (R209): a word of the array written in part is read first (R230). -/
def State.l2Write (s : State) (c a n : Nat) : State :=
  let line := paLine a
  let i := l2Slice line
  let sl := Tab.get {} s.mem.slices i
  match sl.find line with
  | some w =>
    let v := sl.way (l2Set line) w
    let d := v.dirty ||| byteMask a n
    let cut_ := (granules (a % 128) n).filter fun g => !(decide (a % 128 ≤ 8 * g) && decide (8 * g + 8 ≤ a % 128 + n))
    let (bad, s) := s.arrayMeet (arrayLine i w (l2Set line)) (maskOf cut_)
    let s := s.updMem fun m => { m with
      flips := m.flips.filter fun f => !(f.line == arrayLine i w (l2Set line) && (granules (a % 128) n).contains (f.cw * 2 + f.sym / 18))
      slices := Tab.upd {} m.slices i fun x => x.setWay (l2Set line) w { v with
        dirty := d, partialFill := v.partialFill && d != 2 ^ 128 - 1 } }
    s.arrayBad line bad
  | none => s.l2Alloc c line (byteMask a n)

/-- A read of a line must wait: its channel is held and the L2 does not hold the line whole (R223), its slice is full (R238), or it would
be repaired from a copy whose channel is held (R238). -/
def State.lineHeld (s : State) (a : Nat) : Bool :=
  let a := s.readAt a
  let line := paLine a
  s.away line && (s.chanHeld line || s.wcStuck (l2Slice line) ||
    (s.guardedAt a && s.chanHeld (paLine (copyB a)) && !(s.badWords line).isEmpty))

/-- A write of a line must wait (R238). -/
def State.writeHeld (s : State) (a : Nat) : Bool :=
  ((Tab.get {} s.mem.slices (l2Slice (paLine a))).find (paLine a)).isNone && s.wcStuck (l2Slice (paLine a))

/-! Reads and writes of device memory by class, through the L2. -/

/-- A requester: the partition and tally that pay, and the class (R37, R445). -/
structure Req where
  part : Nat
  tally : Nat
  cls : Nat
  deriving DecidableEq, Repr

/-- The requester of kind i of a partition. -/
def State.req (s : State) (p t i : Nat) : Req := { part := p, tally := t, cls := s.sv.cls p i }

/-- Reads a line of device memory at its home: the errors that lie in the channel are met when it is read. -/
def State.homeRead (s : State) (r : Req) (a : Nat) : State :=
  let line := paLine (s.readAt a)
  let s := s.recall line false
  let (ch, s) := s.l2Read r.cls line
  let s := s.charge r.part r.tally 6 1
  if ch then ((s.channelRead line).charge r.part r.tally 6 1).charge r.part r.tally 8 4 else s

/-- The copies of an address: both of a guarded region (R219). -/
def State.copies (s : State) (a : Nat) : List Nat := if s.guardedAt a then [a, copyB a] else [a]

/-- Writes bytes within a line of device memory at its home, or at both homes of a guarded line; poisoned data poisons the line (R214,
R219, R222). -/
def State.homeWrite (s : State) (r : Req) (a : Nat) (d : List Byte) (poison : Bool := false) : State :=
  let cs := s.copies a
  let s := cs.foldl (init := s) fun s a => (((s.recall (paLine a) true).l2Write r.cls a d.length).charge r.part r.tally 6 1).devWrite1 a d
  if poison then cs.foldl (fun s a => if s.deadAt a then s else s.setPoison a true) s else s

/-! Coherent agents (R259, R260). The bytes of an agent's line are those of memory: what it writes is taken at its home at once, and
another's write ends its copy. -/

/-- Puts a number into a rising list. -/
def risen (a : Nat) : List Nat → List Nat
  | [] => [a]
  | b :: t => if a < b then a :: b :: t else if a = b then b :: t else b :: risen a t

def State.dirEntry (s : State) (line : Nat) : DirEntry := Tab.get {} s.mem.dir line
def State.setDir (s : State) (line : Nat) (e : DirEntry) : State := s.updMem fun m => { m with dir := Tab.set {} m.dir line e }

/-- An agent holds a line. -/
def DirEntry.has (e : DirEntry) (a : Nat) : Bool := e.owner == some a || e.sharers.contains a

/-- An agent's copy has gone. -/
def DirEntry.without (e : DirEntry) (a : Nat) : DirEntry :=
  { sharers := e.sharers.erase a, owner := if e.owner = some a then none else e.owner }

/-- Lines that an agent's cache holds (R259). -/
def agentCap (a : Nat) : Nat := if a < 16 then 512 else if a < 80 then 128 else 256

/-- The set of the directory that a line belongs to: the L2's (log entry 112). -/
def dirSet (line : Nat) : Nat := l2Slice line * 512 + l2Set line

/-- A new entry in a full set of 8 recalls the lines of a victim first (R260): which is a free value. -/
def State.dirRoom (s : State) (line : Nat) : State :=
  let l := (s.mem.dir.filter fun e => dirSet e.1 == dirSet line).map (·.1)
  if s.dirEntry line != {} || l.length < 8 then s
  else
    let (v, s) := s.draw
    s.setDir (l.getD (v.toNat % l.length) 0) {}

/-- A new line in a full cache takes the place of one of the agent's, a free value. -/
def State.agentRoom (s : State) (a line : Nat) : State :=
  let l := (s.mem.dir.filter fun e => e.2.has a).map (·.1)
  if (s.dirEntry line).has a || l.length < agentCap a then s
  else
    let (v, s) := s.draw
    let x := l.getD (v.toNat % l.length) 0
    s.setDir x ((s.dirEntry x).without a)

/-- An agent keeps a line as a sharer. -/
def State.agentKeep (s : State) (a line : Nat) : State :=
  let s := (s.agentRoom a line).dirRoom line
  let e := s.dirEntry line
  s.setDir line { e with sharers := risen a e.sharers }

/-- The L2 and channel activity of an agent's read: a command processor's is its partition's, the others' counts toward idle. -/
def State.agentTouch (s : State) (a line : Nat) (tally : Nat := 0) : State :=
  if a < 16 then s.homeRead (s.req a tally 2) (line * 128)
  else
    let (ch, s) := (s.recall line false).l2Read 15 line
    let s := s.chargeIdle 6 1
    if ch then (s.channelRead line).chargeIdle 8 4 else s

/-- An agent's read of a line: from its cache, or from the home, which makes it a sharer (R260). -/
def State.agentRead (s : State) (a line : Nat) (tally : Nat := 0) : State :=
  if (s.dirEntry line).has a then s else (s.agentTouch a line tally).agentKeep a line

/-! What walks do (R246 to R248, R262). -/

/-- An entry joins a full or a smaller list of a cache; what leaves is a free value (R246: random). -/
def State.cachePut {α : Type} [DecidableEq α] (s : State) (l : List α) (cap : Nat) (e : α) : List α × State :=
  if l.contains e then (l, s)
  else if l.length < cap then (l ++ [e], s)
  else
    let (v, s) := s.draw
    (l.eraseIdx (v.toNat % l.length) ++ [e], s)

/-- A translation joins a TLB of a given number of entries. -/
def State.tlbPut (s : State) (i cap : Nat) (e : TlbEntry) : State :=
  let (l, s) := s.cachePut (Tab.get [] s.mem.tlbs i) cap e
  s.updMem fun m => { m with tlbs := Tab.set [] m.tlbs i l }

/-- A walker reads an entry at its home slice, in class 15, charged to tally 0 of the partition (R248, R262, R445). -/
def State.walkRead (s : State) (p a : Nat) : State := s.homeRead { part := p, tally := 0, cls := 15 } a

/-- The lines of the device's own tables that a pool-half walk reads. -/
def State.poolReads (s : State) (p slot va : Nat) : List Nat := (s.poolSteps p slot va).filterMap s.tableCopy

/-- The entries that a requester's walk reads (R248): a driver-half table's address is translated first. -/
def State.walkReads (s : State) (u p slot va : Nat) : List Nat :=
  if va < 2 ^ 55 then s.poolReads p slot va
  else (s.driverSteps u p slot va).1.flatMap fun v =>
    (if (s.tlbHit u p slot v).isSome then [] else s.poolReads p slot v) ++
    (match s.poolXl u p slot v with | some { loc := .dev a, .. } => [a] | _ => [])

/-- A frame-map entry is read on a miss and cached (R246, R248). -/
def State.cacheFrame (s : State) (u p va w l : Nat) : State :=
  if bits w 3 2 != 0 || decide (va ≥ 2 ^ 55) then s
  else
    let i := bits w 63 56
    let k := s.frameKey p i (bits w 39 16 * 65536 + va % 2 ^ l)
    let c := Tab.get [] s.mem.frames (tierOf u)
    if c.contains (p, i, k) then s
    else
      let s := match s.tableCopy (s.frameAt p i k) with | some a => s.walkRead p a | none => s
      let (c, s) := s.cachePut c 16384 (p, i, k)
      s.updMem fun m => { m with frames := Tab.set [] m.frames (tierOf u) c }

/-- What the translation of an access leaves behind (R246 to R248): a miss has read its tables, and a present leaf stays cached in the
requester's TLB and in its tier's until XLT_INVAL. -/
def State.cacheLeaf (s : State) (u p slot va : Nat) : State :=
  if u ≥ 656 then s
  else
    match s.xlate u p slot va, s.leafOf u p slot va with
    | some _, some (w, l) =>
      let e : TlbEntry := { part := p, slot := slot, base := va / 2 ^ l * 2 ^ l, bits := l, leaf := w }
      let s := if (s.tlbHit u p slot va).isSome then s else (s.walkReads u p slot va).foldl (fun s a => s.walkRead p a) s
      ((s.tlbPut u 64 e).tlbPut (tlbShared (tierOf u)) 32768 e).cacheFrame u p va w l
    | _, _ => s

/-! Stride prefetch (R232, R233). -/

/-- A detector's next state on an access of stream `id` at a virtual address. -/
def Detector.observe (x : Detector) (p va : Nat) : Detector :=
  if x.part != p + 1 then { part := p + 1, last := va, stride := 0, conf := 0 }
  else
    let d : Int := (va : Int) - x.last
    if d = x.stride && 128 ≤ d.natAbs && d.natAbs ≤ 65536 then { x with last := va, conf := min 3 (x.conf + 1) }
    else { x with last := va, stride := d, conf := 0 }

/-- Trains the detector of a stream, and prefetches lines of the same page into the stream's ways (R232, R233). -/
def State.train (s : State) (u : Nat) (r : Req) (id slot va : Nat) : State :=
  if id = 0 then s
  else
    let x := (Tab.get {} s.mem.dets id).observe r.part va
    let s := s.updMem fun m => { m with dets := Tab.set {} m.dets id x }
    let n := if x.conf = 3 then 4 else if x.conf = 2 then 2 else 0
    (List.range n).foldl (init := s) fun s i =>
      let t : Int := (va : Int) + x.stride * ((i + 1 : Nat) : Int)
      if t < 0 || t.toNat / 65536 != va / 65536 then s
      else
        match s.xlate u r.part slot t.toNat with
        | some { loc := .dev a, .. } =>
          let line := paLine (s.readAt a)
          if ((Tab.get {} s.mem.slices (l2Slice line)).find line).isSome || s.poisonAt a || s.lineHeld a then s
          else ((s.l2Alloc r.cls line 0).channelRead line).charge r.part 0 8 4
        | _ => s

/-! Semaphore words (R120): 64-bit words of device memory or L2 scratch, numbered 2^41 + key in scratch. -/

def semLoc : Loc → Nat
  | .l2s p a => 2 ^ 41 + l2sKey p a
  | .dev a => a
  | _ => 0

/-- The word, unless it reads poisoned. -/
def State.semWord (s : State) (n : Nat) : Option Nat :=
  if n ≥ 2 ^ 41 then
    let k := n - 2 ^ 41
    if (granules k 8).any (Tab.get false s.mem.l2sPoison) then none else some (leVal (s.mem.l2s.read k 8))
  else if s.poisonAt n then none
  else some (leVal (s.devRead n 8))

/-- The L1 of a core is invalidated (R79). -/
def State.clearL1 (s : State) (c : Nat) : State := s.updCore c fun y => { y with l1 := [] }

/-- Checks one waiting SEM.ACQUIRE (R120): it raises POISON at a poisoned word, or acquires once every word suffices; a word of a held
channel is checked later (R223). -/
def State.semTry (s : State) (g : Nat) (p : PendLoad) : State :=
  let lanes := p.lanes.map (·.lane)
  let s := p.lanes.foldl (fun s l => match l.loc with | .l2s q a => s.scratchMeet q a 8 | _ => s) s
  let words := p.lanes.map fun l => s.semWord (semLoc l.loc)
  let drop := fun (x : Gang) => { x with pend := x.pend.erase p }
  let resume := fun (x : Gang) => lanes.foldl (fun x l => x.updLane l fun y => { y with wait := .none }) x
  if p.lanes.any fun l => match l.loc with | .dev a => s.lineHeld a | _ => false then s else
  match (p.lanes.zip words).find? fun e => e.2.isNone with
  | some (bad, _) => s.updGang g fun x =>
      let pc := (x.lane bad.lane).pc - 8
      let x := lanes.foldl (fun x l => x.updLane l fun y => { y with pc := pc }) (resume (drop x))
      { x with trap := some { code := 0x09, pc := pc, mask := maskOf lanes, extra := extra16 0xFE bad.addr } }
  | none =>
    if (words.zip p.vals).all fun e => decide (e.1.getD 0 ≥ e.2)
    then (s.updGang g fun x => resume (drop x)).clearL1 (coreOf g) else s

/-- Checks every waiting SEM.ACQUIRE of a gang. -/
def State.semGang (s : State) (g : Nat) : State :=
  if (s.gang g).trap.isSome then s
  else ((s.gang g).pend.filter fun p => p.kind == .sem).foldl (fun s p => s.semTry g p) s

end Sys2Proof.Machine
end

