-- ==== Sys2Proof/Machine/Pages.lean ====
section
/-!
DEFINITION. Pages (R202, R264, R269, R271): free pages and capacity, seams and their frames, leaves of the pool half, pages
that commit groups back (R522), epochs and the steps of R253.
-/

namespace Sys2Proof.Machine

/-! Capacity. -/

/-- Retired pages of a channel (R202, R236). -/
def State.retiredOn (s : State) (ch : Nat) : Nat := (s.flash.retired.filter fun a => paChan a == ch).length
def State.isRetired (s : State) (ch pg : Nat) : Bool := s.flash.retired.any fun a => paChan a == ch && paPage a == pg

/-- Usable pages of a channel: all but the top 512 and the retired ones (R202). -/
def State.usable (s : State) (ch : Nat) : Nat := (s.chan ch).pages - 512 - s.retiredOn ch

/-- MEM_CAPACITY (R202): the usable pages of the channels that are LIVE. -/
def State.capacity (s : State) : Nat :=
  s.mem.chans.foldl (fun n e => if e.2.state = .live then n + s.usable e.1 else n) 0

/-- A page that can be placed. -/
def State.pageFree (s : State) (ch pg : Nat) : Bool :=
  decide (pg + 512 < (s.chan ch).pages) && !Tab.get false s.mem.used (ch * 32768 + pg) && !s.isRetired ch pg

/-- The lowest free page of a channel from page i (log entry 13). -/
def State.freeFrom (s : State) (ch : Nat) : Nat → Nat → Option Nat
  | 0, _ => none
  | f + 1, i => if s.pageFree ch i then some i else s.freeFrom ch f (i + 1)

def State.freePage (s : State) (ch : Nat) : Option Nat :=
  if (s.chan ch).state = .live then s.freeFrom ch ((s.chan ch).pages - 512) 0 else none

/-- The lowest page free on a channel and on its partner (R201). -/
def State.freePair (s : State) (ch : Nat) : Option Nat :=
  if (s.chan ch).state = .live && (s.chan (ch ^^^ 256)).state = .live
  then (List.range ((s.chan ch).pages - 512)).find? fun i => s.pageFree ch i && s.pageFree (ch ^^^ 256) i else none

def State.takePage (s : State) (ch pg : Nat) : State :=
  s.updMem fun m => { m with used := Tab.set false m.used (ch * 32768 + pg) true }

/-- A page goes back, zeroed (R264). -/
def State.givePage (s : State) (ch pg : Nat) : State :=
  (s.zeroPage ch pg).updMem fun m => { m with used := Tab.set false m.used (ch * 32768 + pg) false }

/-- One free page on each channel of a list. -/
def State.takeEach (s : State) : List Nat → Option (List Nat × State)
  | [] => some ([], s)
  | c :: t =>
    match s.freePage c with
    | none => none
    | some pg => ((s.takePage c pg).takeEach t).map fun (l, s) => (pg :: l, s)

/-! Seams. -/

/-- Channels in the engine's order (R271): by channel in stack, then stack; the first 2^n, ascending. -/
def firstPow2 (l : List Nat) : List Nat :=
  let o := (List.range 32).flatMap fun k => l.filter fun c => c % 32 == k
  let m := if o.isEmpty then 0 else 2 ^ Nat.log2 o.length
  (List.range 512).filter (o.take m).contains

/-- The live channels of a pool. -/
def State.poolChans (s : State) (pl : Pool) : List Nat := (setBits 512 pl.chans).filter fun c => (s.chan c).state == .live

/-- The stride of a pattern (R271). -/
def Pool.stride (pl : Pool) (pattern : Nat) : Nat :=
  match pattern with
  | 0 => pl.smax
  | 1 => max pl.smin (min 10 pl.smax)
  | _ => pl.smin

/-- A seam that holds a pinned tensor is pinned (R280). -/
def State.seamPinned (s : State) (p i : Nat) : Bool :=
  (s.part p).plc.tensors.any fun e => (e.2.pinned || (s.part p).plc.pinnedAll) && e.2.pages.any fun x => x.1 == i

/-- Pages of a pool in use (R269, R282). -/
def State.poolUsed (s : State) (p k : Nat) : Nat :=
  (s.part p).plc.seams.foldl (fun n e => if e.2.region.isNone && e.2.pool = k then n + e.2.used.length else n) 0

/-- PLC_FREE_PAGES (R282). -/
def State.freePages (s : State) (p : Nat) : Nat :=
  (s.sv.pools.filter fun e => e.part == p).foldl (fun n e => n + (e.gib * 16384 - s.poolUsed p e.pool)) 0

/-- The seam of a pool with given channels and stride: an existing one that is not pinned, or a new number (R271). -/
def State.seamFor (s : State) (p k : Nat) (chans : List Nat) (stride : Nat) : Option Nat :=
  if chans.isEmpty then none
  else
    match (s.part p).plc.seams.find? fun e =>
      e.2.region.isNone && e.2.pool == k && e.2.d.chans == chans && e.2.d.stride == stride && e.2.goal.isNone && !s.seamPinned p e.1 with
    | some e => some e.1
    | none => s.seamNumber p

/-- Makes sure that a seam has the frames of group g. -/
def State.needGroup (s : State) (p i g : Nat) : Option State :=
  let d := (s.seam p i).d
  let n := d.chans.length
  if Tab.get 0 d.frames (g * n) != 0 then some s
  else
    (s.takeEach d.chans).map fun (l, s) =>
      s.updSeam p i fun x => { x with d := { x.d with
        frames := (List.range n).foldl (fun t j => Tab.set 0 t (g * n + j) (l.getD j 0 + 1)) x.d.frames } }

/-- Takes m pages of a seam's offset space, the lowest free ones from page t. -/
def State.takeSeam (p i : Nat) : Nat → Nat → Nat → State → Option (List Nat × State)
  | _, 0, _, s => some ([], s)
  | 0, _, _, _ => none
  | f + 1, m + 1, t, s =>
    let sm := s.seam p i
    if Tab.get false sm.used t then State.takeSeam p i f (m + 1) (t + 1) s
    else
      match s.needGroup p i (t / sm.d.chans.length) with
      | none => none
      | some s =>
        let s := s.updSeam p i fun x => { x with used := Tab.set false x.used t true }
        (State.takeSeam p i f m (t + 1) s).map fun (l, s) => (t :: l, s)

/-- Places m pages in a seam of a pool with given channels and stride, within the pool's size (R269). -/
def State.placeIn (s : State) (p : Nat) (pl : Pool) (chans : List Nat) (stride m : Nat) : Option (List (Nat × Nat) × State) :=
  if s.poolUsed p pl.pool + m > pl.gib * 16384 then none
  else
    match s.seamFor p pl.pool chans stride with
    | none => none
    | some i =>
      let s := if (s.seam p i).d.chans.isEmpty then
        s.updSeam p i fun x => { x with d := { chans := chans, stride := stride }, pool := pl.pool } else s
      (State.takeSeam p i (m + (s.seam p i).used.length) m 0 s).map fun (l, s) => (l.map fun t => (i, t), s)

/-- The engine's initial placement of m pages (R271). -/
def State.placePages (s : State) (p : Nat) (pl : Pool) (pattern m : Nat) : Option (List (Nat × Nat) × State) :=
  s.placeIn p pl (firstPow2 (s.poolChans pl)) (pl.stride pattern) m

/-- Zeroes one page of a seam's offset space, chunk by chunk. -/
def State.zeroSeam (s : State) (p i t : Nat) : State :=
  let sm := s.seam p i
  let c := 2 ^ max sm.d.stride 8
  (List.range (65536 / c)).foldl (init := s) fun s j =>
    match s.seamPhys sm (t * 65536 + j * c) with
    | none => s
    | some a => s.updMem fun m => { m with
        dev := m.dev.zero a c
        poison := Tab.clear (fun l => decide (a / 128 ≤ l ∧ l < (a + c) / 128)) m.poison }

/-- The pages (channel, page) of a definition's frames whose index satisfies f. -/
def SeamDef.framePages (d : SeamDef) (f : Nat → Bool) : List (Nat × Nat) :=
  d.frames.filterMap fun e =>
    match e.2, d.chans[e.1 % d.chans.length]? with
    | pg + 1, some c => if f e.1 then some (c, pg) else none
    | _, _ => none
/-- A definition without them. -/
def SeamDef.without (d : SeamDef) (f : Nat → Bool) : SeamDef := { d with frames := Tab.clear f d.frames }

/-- Gives back a page of a seam (R264): it is zeroed; a group with no page in use gives back its frames, and a seam with
none its number, once no move of it runs. -/
def State.giveSeam (s : State) (p i t : Nat) : State :=
  let s := (s.zeroSeam p i t).updSeam p i fun x => { x with used := Tab.set false x.used t false }
  let sm := s.seam p i
  let empty := fun (d : SeamDef) (k : Nat) =>
    let n := d.chans.length
    k / n == t / n && !(sm.used.any fun e => e.1 / n == t / n)
  let give := fun (s : State) (d : SeamDef) => (d.framePages (empty d)).foldl (fun s f => s.givePage f.1 f.2) s
  let s := give s sm.d
  let s := match sm.goal with | some (d, _) => give s d | none => s
  s.updSeam p i fun x =>
    let x := { x with d := x.d.without (empty x.d), goal := x.goal.map fun g => (g.1.without (empty g.1), g.2) }
    if x.used.isEmpty && !x.active then { grp := x.grp } else x

/-! Leaves of the pool half (R240, R244). -/

/-- A leaf word names page t of seam i. -/
def leafIs (w i t : Nat) : Bool := w != 0 && bits w 63 56 == i && bits w 39 16 == t

/-- A seam leaf's word. -/
def leafWord (seam page : Nat) (r w a x : Bool) : Nat :=
  seam * 2 ^ 56 + page * 65536 + pack [(0, 3), (4, b2n r), (5, b2n w), (6, b2n a), (7, b2n x)]

def State.setLeaf (s : State) (p slot va w : Nat) : State :=
  s.updPart p fun x => { x with table := Tab.set 0 x.table (pageKey slot va) w }

/-- Maps pages, in order, from a virtual address. -/
def State.mapPages (s : State) (p slot va : Nat) (pages : List (Nat × Nat)) (r w a x : Bool) : State :=
  (pages.zipIdx).foldl (fun s e => s.setLeaf p slot (va + e.2 * 65536) (leafWord e.1.1 e.1.2 r w a x)) s

/-- Withdraws the leaves of a range. -/
def State.unmap (s : State) (p slot va n : Nat) : State :=
  let k := pageKey slot va
  s.updPart p fun x => { x with table := Tab.clear (fun i => decide (k ≤ i ∧ i < k + n / 65536)) x.table }

/-- Some page of the range has a leaf. -/
def State.mapped (s : State) (p slot va n : Nat) : Bool :=
  let k := pageKey slot va
  (s.part p).table.any fun e => decide (k ≤ e.1 ∧ e.1 < k + n / 65536)

/-- The enabled slots of a partition. -/
def State.slotsOn (s : State) (p : Nat) : List Nat := ((s.part p).as.filter fun e => bit e.2 63).map (·.1)

/-! Epochs (R252, R253). -/

/-- CURRENT may advance: the next value is stamped nowhere. -/
def State.canBump (s : State) (p : Nat) : Bool := !(s.stamps p).contains (((s.part p).epoch + 1) % 65536)

/-- CURRENT advances; E is what it was. -/
def State.bump (s : State) (p : Nat) : Nat × State :=
  ((s.part p).epoch, s.updPart p fun x => { x with epoch := (x.epoch + 1) % 65536 })

/-- No access stamped E or earlier remains. -/
def State.passed (s : State) (p e : Nat) : Bool :=
  let c := (s.part p).epoch
  (s.stamps p).all fun x => decide (modSub 65536 c x < modSub 65536 c e)

/-- Removes the cached translations of a slot that overlap a range, and for a range in the pool half the partition's frame-cache entries
(R253). -/
def State.dropTlb (s : State) (p slot va n : Nat) : State :=
  let keep := fun (e : TlbEntry) => !(e.part == p && e.slot == slot && decide (e.base < va + n ∧ va < e.base + 2 ^ e.bits))
  s.updMem fun m => { m with
    tlbs := Tab.adjust [] (fun _ l => l.filter keep) m.tlbs
    frames := if va < 2 ^ 55 then Tab.adjust [] (fun _ l => l.filter fun e => e.1 != p) m.frames else m.frames }

/-- A removed partition's cached translations go with it (R53). -/
def State.forgetPart (s : State) (p : Nat) : State :=
  s.updMem fun m => { m with
    tlbs := Tab.adjust [] (fun _ l => l.filter fun e => e.part != p) m.tlbs
    frames := Tab.adjust [] (fun _ l => l.filter fun e => e.1 != p) m.frames }

/-- The frame-cache entries of a partition go (R253 step 3). -/
def State.dropFrames (s : State) (p : Nat) : State :=
  s.updMem fun m => { m with frames := Tab.adjust [] (fun _ l => l.filter fun e => e.1 != p) m.frames }

/-- What was withdrawn while CURRENT could not advance takes its epoch once it may (R253 step 1). -/
def State.bumpFor (s : State) (p : Nat) : State :=
  if (s.part p).plc.zeroing.any (fun e => e.1.isNone) && s.canBump p then
    let (e, s) := s.bump p
    s.updPlc p fun x => { x with zeroing := x.zeroing.map fun y => (y.1.or (some e), y.2) }
  else s

/-- What a partition withdrew is free. -/
def State.give (s : State) (p : Nat) : Gone → State
  | .page i t => s.giveSeam p i t
  | .scratch _ _ => s

/-- Whatever of a partition has been withdrawn is freed once the steps of R253 are done; so are the pages that frame maps have given up. -/
def State.reclaim (s : State) (p : Nat) : State :=
  let s := s.bumpFor p
  let out := fun (e : Option Nat × Gone) => match e.1 with | some e => s.passed p e | none => false
  let z := (s.part p).plc.zeroing
  let free := z.filter out
  let s := if free.isEmpty then s
    else free.foldl (fun s e => s.give p e.2) (s.updPlc p fun x => { x with zeroing := z.filter fun e => !out e })
  let l := s.mem.leaving.map fun e => (e.1.filter fun w => !(w.1 == p && s.passed p w.2), e.2)
  let gone := l.filter fun e => e.1.isEmpty
  if s.mem.leaving.isEmpty then s
  else gone.foldl (fun s e => s.givePage e.2.1 e.2.2) (s.updMem fun m => { m with leaving := l.filter fun e => !e.1.isEmpty })

/-- The partition's own epoch step (R253): what it withdraws goes back after it. -/
def State.retireGone (s : State) (p : Nat) (l : List Gone) : State :=
  if l.isEmpty then s
  else (s.updPlc p fun x => { x with zeroing := x.zeroing ++ l.map fun y => (none, y) }).reclaim p
def State.retirePages (s : State) (p : Nat) (pages : List (Nat × Nat)) : State :=
  s.retireGone p (pages.map fun x => .page x.1 x.2)

/-- Pages that a frame map gives up follow the steps of R253 of partitions that may all advance: their epochs, and the state. -/
def State.leave (s : State) (ps : List Nat) (pages : List (Nat × Nat)) : List (Nat × Nat) × State :=
  let es := ps.map fun p => (p, (s.part p).epoch)
  let s := ps.foldl (fun s p => ((s.bump p).2).dropFrames p) s
  let s := s.updMem fun m => { m with leaving := m.leaving ++ pages.map fun x => (es, x) }
  (es, ps.foldl (fun s p => s.reclaim p) s)

/-- The state as it will be once everything now withdrawn is free (R264, R272, R283). -/
def State.settled (s : State) : State :=
  let s := s.parts.foldl (init := s) fun s e =>
    e.2.plc.zeroing.foldl (fun s x => s.give e.1 x.2) (s.updPlc e.1 fun x => { x with zeroing := [] })
  s.mem.leaving.foldl (fun s e => s.givePage e.2.1 e.2.2) (s.updMem fun m => { m with leaving := [] })

/-! Pages that a commit group backs (R522). -/

/-- The pages of a range rounded out to 64 KiB. -/
def pagesOf (va n : Nat) : List Nat := (List.range ((va + n + 65535) / 65536 - va / 65536)).map fun i => (va / 65536 + i) * 65536

/-- Places one page from the partition's lowest-numbered pool that has one free. -/
def State.backOne (s : State) (p : Nat) : Option ((Nat × Nat) × State) :=
  (List.range 16).findSome? fun k =>
    match s.sv.pool p k with
    | none => none
    | some pl =>
      match s.placePages p pl 0 1 with
      | some ([x], s) => some (x, s)
      | _ => none

/-- Backs the pages of a range that nothing maps. -/
def State.backAll (s : State) (p slot grp : Nat) : List Nat → Option State
  | [] => some s
  | va :: t =>
    if s.mapped p slot va 65536 then s.backAll p slot grp t
    else
      match s.backOne p with
      | none => none
      | some (x, s) =>
        let s := (s.mapPages p slot va [x] true true false false).updPlc p fun y =>
          { y with groupPages := Tab.set 0 y.groupPages (pageKey slot va) (grp + 1) }
        s.backAll p slot grp t

/-- The checks and effect of R522 at a COMMIT of a group whose range is n bytes at base: the status (0, 2 RANGE, 3 BOUNDS)
and the state. -/
def State.back (s : State) (p grp base n : Nat) : Nat × State :=
  let slot := base / 2 ^ 56
  let va := base % 2 ^ 56
  if !s.asOn p slot || decide (va + n > 2 ^ 55) then (2, s)
  else
    let bad := (pagesOf va n).any fun a =>
      let w := Tab.get 0 (s.part p).table (pageKey slot a)
      w != 0 && !(bit w 4 && bit w 5)
    if bad then (3, s)
    else
      match s.backAll p slot grp (pagesOf va n) with
      | some s => (0, s)
      | none => (3, s)

/-- Group-backed pages that the group's live range no longer covers are freed (R522); n = 0: all of them. -/
def State.unback (s : State) (p grp base n : Nat) : State :=
  let slot := base / 2 ^ 56
  let keep := (if n = 0 then [] else pagesOf (base % 2 ^ 56) n).map (pageKey slot)
  let gone := ((s.part p).plc.groupPages.filter fun e => e.2 == grp + 1 && !keep.contains e.1).map (·.1)
  let pages := gone.map fun k => let w := Tab.get 0 (s.part p).table k; (bits w 63 56, bits w 39 16)
  let s := gone.foldl (fun s k => s.dropTlb p (k / 2 ^ 39) (k % 2 ^ 39 * 65536) 65536) s
  let s := s.updPart p fun x => { x with
    table := Tab.clear gone.contains x.table, plc := { x.plc with groupPages := Tab.clear gone.contains x.plc.groupPages } }
  s.retirePages p pages

end Sys2Proof.Machine
end

