-- ==== Sys2Proof/Machine/RingBase.lean ====
section
/-!
DEFINITION. Rings and their commands (R284 to R294, R303 to R311, R315 to R317): positions, loops and buffers, the start of
a command and its header, reads and writes by the command processor, semaphores, errors, guilty rings.
-/

namespace Sys2Proof.Machine

/-! Fields of a command (R291). -/

def Cmd.op (c : Cmd) : Nat := u8 c.bytes 0
def Cmd.seq (c : Cmd) : Nat := u32 c.bytes 8
/-- Slots a command occupies. -/
def lenOf (b : List Byte) : Nat := u8 b 2 % 16 + 1

/-- The tally of a command: a node whose header names none takes its launch's (R312). -/
def State.cmdTally (s : State) (p k : Nat) : Nat :=
  let c := s.cmd p k
  let t := u32 c.bytes 4
  match c.parent with
  | some j => if t = 0 then u32 (s.cmd p j).bytes 4 else t
  | none => t

/-- The bytes from i on that no listed field (offset, size) covers are zero. -/
def gapsZero (b : List Byte) : Nat → List (Nat × Nat) → Bool
  | i, [] => zeroAt b i (b.length - i)
  | i, (o, n) :: t => zeroAt b i (o - i) && gapsZero b (o + n) t

/-- The header and the reserved bytes of a command whose operand fields are listed (R291 to R293). -/
def cmdBad (b : List Byte) (flags min : Nat) (used : List (Nat × Nat)) : Bool :=
  (u8 b 1 &&& (255 - flags)) != 0 || decide (u8 b 2 ≥ 16) || u8 b 3 != 0 || u32 b 12 != 0 || decide (lenOf b < min + 1) ||
  !gapsZero b 16 used

/-! Positions (R284, R305, R306). -/

/-- The CALL buffer in which positions count: its slot, address, slots and command; none in the ring. -/
def callOf : List Frame → Option (Nat × Nat × Nat)
  | [] => none
  | .call _ va slot slots _ :: _ => some (slot, va, slots)
  | .loop _ _ _ _ _ :: t => callOf t

/-- The commands that enclose the next one: started LOOPs and CALLs. -/
def Frame.cmd : Frame → Nat
  | .loop k _ _ _ _ => k
  | .call k _ _ _ _ => k

def Ring.pos (r : Ring) : Nat :=
  match r.frames with
  | [] => r.next
  | .loop _ _ a _ _ :: _ => a
  | .call _ _ _ _ a :: _ => a

/-- The ring with its next command at a position. -/
def Ring.setPos (r : Ring) (i : Nat) : Ring :=
  match r.frames with
  | [] => { r with next := i % two32 }
  | .loop k st _ l n :: t => { r with frames := .loop k st i l n :: t }
  | .call k va sl m _ :: t => { r with frames := .call k va sl m i :: t }

/-- One command of the innermost loop's iteration fewer. -/
def Ring.pass (r : Ring) : Ring :=
  match r.frames with
  | .loop k st a l n :: t => { r with frames := .loop k st a (l - 1) n :: t }
  | _ => r

/-- The body of an inner LOOP counts among the commands of the enclosing iteration (R305, log entry 126). -/
def Ring.passBody (r : Ring) (m : Nat) : Ring :=
  match r.frames with
  | .loop k st a l n :: t => { r with frames := .loop k st a (l - m) n :: t }
  | _ => r

/-- Slots ready at the position: to TAIL, or to the end of the buffer. -/
def Ring.room (r : Ring) : Nat :=
  match callOf r.frames with
  | some (_, _, m) => m - r.pos
  | none => modSub two32 r.tail r.pos

/-- The innermost loop's iteration, or buffer, holds no further command. -/
def Ring.ended (r : Ring) : Bool :=
  match r.frames with
  | [] => false
  | .loop _ _ _ l _ :: t => l == 0 || ((callOf t).isSome && r.room == 0)
  | .call _ _ _ m a :: _ => decide (a ≥ m)

/-- The address-space slot and virtual address of the slot at position i. -/
def Ring.addr (r : Ring) (i : Nat) : Nat × Nat :=
  match callOf r.frames with
  | some (sl, va, _) => (sl, va + 64 * i)
  | none => (r.grp.live.base / 2 ^ 56, r.grp.live.base % 2 ^ 56 + 64 * (i % r.grp.live.size))

/-- Slots of the command at position i, as its LEN in memory says; 1 when it cannot be read. -/
def State.lenAt (s : State) (p n i : Nat) : Nat :=
  let (sl, va) := (s.ring p n).addr i
  match s.vread (tlbCp p) p sl (va + 2) 1 with
  | some (b, _) => u8 b 0 % 16 + 1
  | none => 1

/-- Passes over the commands that a skip names (R304), as far as they are visible; their slots go with the command that
skips. -/
def State.runSkip (p n k : Nat) : Nat → State → State
  | 0, s => s
  | f + 1, s =>
    let r := s.ring p n
    let stop := fun (s : State) => (s.updRing p n fun r => { r with skip := 0 }).updCmd p k fun c => { c with wait := .done }
    if r.skip = 0 || r.ended then stop s
    else
      let m := s.lenAt p n r.pos
      if r.room = 0 then s
      else if m > r.room && (callOf r.frames).isNone then s
      else
        let m := min m r.room
        let s := s.updRing p n fun r => { (r.setPos (r.pos + m)).pass with skip := r.skip - 1 }
        let s := if r.frames.isEmpty then s.updCmd p k fun c => { c with slots := c.slots + m } else s
        if r.skip = 1 then stop s else State.runSkip p n k f s

/-- The command of a ring that settles what its next command is: a skip or a test under way, or a LOOP whose body is not all
visible (R304, R305). -/
def State.settling (s : State) (p n : Nat) : Option Nat :=
  (s.ring p n).started.find? fun k => match (s.cmd p k).wait with
    | .skip | .fit => true
    | .word => (s.cmd p k).op == 8
    | _ => false

/-- Continues a skip that waits for the doorbell. -/
def State.moreSkip (s : State) (p n : Nat) : State :=
  let r := s.ring p n
  match s.settling p n with
  | some k => if r.skip > 0 then State.runSkip p n k r.skip s else s
  | none => s

/-! Reads and writes by the command processor (class 2 of R37), charged to the command's tally (R445). -/

/-- The command processor's cache, the L2 and the channels on a read of n bytes (R259, R260). -/
def State.cpTouch (s : State) (p t slot va n : Nat) : State :=
  (linePieces (n + 1) va 0 (List.replicate n 0#8)).foldl (init := s) fun s e =>
    match s.xlate (tlbCp p) p slot (va + e.1) with
    | some { loc := .dev a, .. } => (s.agentRead p (paLine (s.readAt a)) t).cacheLeaf (tlbCp p) p slot (va + e.1)
    | _ => s

/-- Reads n bytes for a command: none when the address does not translate present with R. -/
def State.cpRead (s : State) (p k slot va n : Nat) : Option (List Byte × Bool) × State :=
  match s.vread (tlbCp p) p slot va n with
  | none => (none, s)
  | some _ =>
    let s := s.cpTouch p (s.cmdTally p k) slot va n
    (s.vread (tlbCp p) p slot va n, s)

/-- Notes that a command sent a posted write on a port (R406). -/
def State.noteHost (s : State) (p n i : Nat) : State :=
  s.updRing p n fun r => { r with ports := r.ports ||| 2 ^ i }

/-- Writes bytes for a command of ring n under a tally, strongly ordered (R405): device memory, or a host window. -/
def State.cpWrite (s : State) (p n t slot va : Nat) (d : List Byte) (poison : Bool := false) : State :=
  (linePieces (d.length + 1) va 0 d).foldl (init := s) fun s e =>
    match s.xlate (tlbCp p) p slot (va + e.1) with
    | some { loc := .dev a, w := true, .. } => (s.homeWrite (s.req p t 2) a e.2 poison).cacheLeaf (tlbCp p) p slot (va + e.1)
    | some { loc := .host i a _, w := true, .. } =>
      (((s.send i (.write (s.hostFn p i) a e.2 false)).noteHost p n i).charge p t 10 (ceilDiv e.2.length 64)).cacheLeaf (tlbCp p) p slot (va + e.1)
    | _ => s

/-- A tag of a port for one of its at most 768 outstanding reads (R395): the lowest free one. -/
def HostPort.freeTag (x : HostPort) : Option Nat := (List.range 768).find? fun t => (Tab.get none x.reqs t).isNone

/-- Reads that wait for a tag are sent while there is one (R395). -/
def State.sendAsks (i : Nat) : Nat → State → State
  | 0, s => s
  | f + 1, s =>
    match (s.port i).asks, (s.port i).freeTag with
    | (fn, a, n, w) :: t, some g =>
      State.sendAsks i f ((s.send i (.read fn a n g)).updPort i fun x => { x with asks := t, reqs := Tab.set none x.reqs g (some w) })
    | _, _ => s

/-- Asks a host for bytes for a partition (R194, R244); none when its port is not READY. With 768 requests outstanding it waits for a
tag. -/
def State.hostAsk (s : State) (p i a n : Nat) (w : Waiter) : Option State :=
  if (s.port i).dom != .ready then none
  else some (State.sendAsks i 1 (s.updPort i fun x => { x with asks := x.asks ++ [(s.hostFn p i, a, n, w)] }))

/-- A reserved type, or a REQ, RSP or RED flit at a device without an ID, is dropped and counted (R373). -/
def State.badFlit (s : State) : State := s.updFab fun x => { x with badType := satAdd 0xFFFF x.badType 1 }

/-- Forgets adit tags (R368): their blocks are no longer held. -/
def Fab.forget (x : Fab) (gone : Nat → Waiter → Bool) : Fab :=
  let out := fun (t : Nat) => match Tab.get none x.tags t with | some w => gone t w | none => false
  { x with tags := Tab.clear out x.tags, tagDev := Tab.clear out x.tagDev, tagFlow := Tab.clear out x.tagFlow, tagAt := Tab.clear out x.tagAt, busy := x.busy.filter fun e => !out e.2.2 }

/-- Drops the requests outside the device whose answers nobody awaits any more; one that has been sent keeps its tag. -/
def State.dropWaiters (s : State) (f : Waiter → Bool) : State :=
  let quit := fun (_ : Nat) (x : Option Waiter) => x.map fun w => if f w then .gone else w
  { s with
    ports := Tab.adjust {} (fun _ x => { x with
      reqs := Tab.adjust none quit x.reqs, asks := x.asks.filter fun y => !f y.2.2.2 }) s.ports
    fab := s.fab.forget fun _ w => f w }

/-! Outcomes of a command. -/

/-- A command that has failed retires in order with its code (R292). -/
def State.fail (s : State) (p k code : Nat) (addr info : Nat := 0) : State :=
  s.updCmd p k fun c => { c with wait := .done, code := code, addr := addr, info := info }

def State.await (s : State) (p k : Nat) (w : CmdWait) : State := s.updCmd p k fun c => { c with wait := w }

/-- Latches an error in a ring (R294, R319): the first keeps its details, and COUNT holds at 0xFFFF. -/
def RingErr.latch (e : RingErr) (c : Cmd) (code addr info : Nat) : RingErr :=
  if e.count = 0 then { sq := c.seq, op := c.op, code := code, count := 1, addr := addr, info := info }
  else { e with count := satAdd 0xFFFF e.count 1 }

/-! Semaphores of commands (R120, R301). -/

/-- The semaphore word that an address names: a seam leaf with R, W and A. -/
def State.semAt (s : State) (p slot va : Nat) : Option Nat :=
  match s.xlate (tlbCp p) p slot va with
  | some { loc := .dev a, r := true, w := true, a := true, .. } => some a
  | _ => none

/-- Raises a word to a value (R120); false when its line is poisoned. -/
def State.semRaise (s : State) (r : Req) (a v : Nat) : Bool × State :=
  if s.poisonAt a then (false, s)
  else (true, (s.homeRead r a).homeWrite r a (leBytes 8 (max (leVal (s.devRead a 8)) v)))

/-- Checks the word for which a FENCE_WAIT waits. -/
def State.semCmd (s : State) (p k : Nat) : State :=
  match (s.cmd p k).wait with
  | .sem a v =>
    -- a word of a held channel is read once the hold ends (R223)
    if decide (a < 2 ^ 41) && s.lineHeld a then s else
    match s.semWord a with
    | none => s.fail p k 0x04 (u64 (s.cmd p k).bytes 16)
    | some w => if v ≤ w then s.await p k .done else s
  | _ => s

/-- Words have been written at their homes: waiting SEM.ACQUIREs and FENCE_WAITs are checked (R120). -/
def State.semCheck (s : State) : State :=
  let gs := (s.gangs.filter fun e => e.2.pend.any fun p => p.kind == .sem).map (·.1)
  let s := gs.foldl (fun s g => s.semGang g) s
  let ks := s.parts.flatMap fun e => (e.2.cmds.filter fun c => match c.2.wait with | .sem _ _ => true | _ => false).map fun c => (e.1, c.1)
  ks.foldl (fun s k => s.semCmd k.1 k.2) s

/-! Holds by placement moves (R275, R276). -/

/-- Retired pages that a seam's frame map still names and that a free page on their channel can replace (R218, R277): the frame's index
and the page. A region's are replaced in its owner's seam, a guarded one's with a page free on both channels (R201). -/
def State.fixable (s : State) (p i : Nat) : Option (Nat × Nat) :=
  let x := s.seam p i
  match x.region with
  | some r =>
    match s.sv.region r with
    | none => none
    | some d =>
      if d.owner != p then none
      else (s.region r).frames.zipIdx.findSome? fun e =>
        let (c, pg) := e.1
        if s.isRetired c pg || (d.guarded && s.isRetired (c ^^^ 256) pg)
        then (if d.guarded then s.freePair c else s.freePage c).map fun q => (e.2, q) else none
  | none =>
    if x.goal.isSome then none
    else x.d.frames.findSome? fun e =>
      match e.2, x.d.chans[e.1 % x.d.chans.length]? with
      | pg + 1, some c => if s.isRetired c pg then (s.freePage c).map fun q => (e.1, q) else none
      | _, _ => none

/-- A forced move of the seam is due (R276 to R278, R280). -/
def State.moveDue (s : State) (p i : Nat) : Bool :=
  let x := s.seam p i
  x.goal.isSome || !x.plan.isEmpty || (s.fixable p i).isSome

/-- A forced move of the seam has started, and holds commands (R276): it is due, and a window has been open since, or there is no
cadence; it holds them to its end. -/
def State.moveHolds (s : State) (p i : Nat) : Bool :=
  let x := s.seam p i
  x.active || (s.moveDue p i && (x.hold || s.tim.cad.window.isSome || s.tim.cad.live.isNone))

/-- The slots of a tensor for holds and moves: any slot of the partition for an ALL_SLOTS tensor. -/
def Tensor.inSlot (x : Tensor) (slot : Nat) : Bool := x.slots.contains slot || bit x.flags 5

/-- A slot of the partition has pages in a seam, or had them when the seam's move began. -/
def State.seamSlot (s : State) (p i slot : Nat) : Bool :=
  (s.part p).plc.tensors.any (fun e => e.2.inSlot slot && (e.2.via.contains i || e.2.pages.any (·.1 == i))) ||
  (s.part p).table.any (fun e => e.1 / 2 ^ 39 == slot && bits e.2 63 56 == i && bit e.2 0)

/-- The seams that a slot of a partition touches through the regions it maps: (owner, seam). -/
def State.regionSeams (s : State) (p slot : Nat) : List (Nat × Nat) :=
  ((s.part p).plc.regionMaps.filter fun m => m.1 == slot).flatMap fun m =>
    match s.sv.region m.2.2 with
    | none => []
    | some d => ((s.part d.owner).plc.seams.filter fun e => e.2.region == some d.region).map fun e => (d.owner, e.1)

/-- A started move holds commands that name a slot of the partition (R275, R276). -/
def State.heldSlot (s : State) (p slot : Nat) : Bool :=
  let plc := (s.part p).plc
  plc.tensors.any (fun e => match e.2.move with | some m => m.active && e.2.inSlot slot | none => false) ||
  plc.seams.any (fun e => s.moveHolds p e.1 && s.seamSlot p e.1 slot) ||
  (s.regionSeams p slot).any fun e => s.moveHolds e.1 e.2

/-- An object of a partition is MOVING (R279): in the window of its own move, or in a forced move of one of its seams. -/
def Tensor.moving (x : Tensor) : Bool := (match x.move with | some m => m.active | none => false) || !x.via.isEmpty

/-- The slots that a COPY names (R275, R298): its own, and those of its descriptors as they now stand in memory. -/
def State.copySlots (s : State) (p : Nat) (b : List Byte) : List Nat :=
  let uses := fun (space slot : Nat) => if space = 1 || space = 3 || space = 4 then [slot] else []
  let ds := match s.vread (tlbCp p) p (u8 b 24) (u64 b 16) (64 * min 65536 (u32 b 28)) with
    | some (d, _) => (List.range (min 65536 (u32 b 28))).flatMap fun i =>
        uses (u8 d (64 * i)) (u8 d (64 * i + 2)) ++ uses (u8 d (64 * i + 1)) (u8 d (64 * i + 3))
    | none => []
  u8 b 24 :: ds

/-- The slots that a command of device work names (R275): LAUNCH, COPY, or a GRAPH_LAUNCH through its nodes. -/
def State.slotsNamed (s : State) (p : Nat) (b : List Byte) : List Nat :=
  let own := fun (b : List Byte) => if u8 b 0 = 1 then [u8 b 17] else if u8 b 0 = 4 then s.copySlots p b else []
  if u8 b 0 = 2 then
    let g := Tab.get {} (s.part p).graphs (u16 b 16)
    match g.vers.find? fun v => v.version == (if u32 b 20 = 0 then g.current.getD 0 else u32 b 20) with
    | some v => v.nodes.flatMap own
    | none => []
  else own b

/-! The start of a command (R286 to R289). -/

/-- The commands of a ring that have started and not retired, but for the LOOPs and CALLs that enclose the next. -/
def Ring.busy (r : Ring) : List Nat := r.started.filter fun k => !(r.frames.map Frame.cmd).contains k

/-- The device's front end works: D3 released (R459), Crew up (R432), and no stop of R465 or R511. -/
def State.frontOn (s : State) : Bool := s.rel 3 && s.dpt.crewUp && !s.rst.powering && !s.rst.tripped

/-- The line at a virtual address lies in a held channel (R223). -/
def State.vaHeld (s : State) (p slot va : Nat) : Bool :=
  match s.xlate (tlbCp p) p slot va with
  | some { loc := .dev a, .. } => s.lineHeld a
  | _ => false

/-- The command processor must wait for a held channel (R223): for the slot that it fetches, or for the word or descriptor that the
command reads as it starts. -/
def State.startHeld (s : State) (p n : Nat) (b : List Byte) : Bool :=
  let (slot, va) := (s.ring p n).addr (s.ring p n).pos
  s.vaHeld p slot va || ([4, 6, 8, 9].contains (u8 b 0) && s.vaHeld p (u8 b 24) (u64 b 16))

/-- Ring n of partition p starts a command whose slots hold b. -/
def State.canStart (s : State) (p n : Nat) (b : List Byte) : Bool :=
  let r := s.ring p n
  let above := bit (u8 b 1) 0 && [1, 2, 4, 5].contains (u8 b 0)
  s.frontOn && s.sv.valid p && r.enable && !s.startHeld p n b && !r.guilty && !(s.part p).draining && (s.settling p n).isNone && !r.ended &&
  decide (r.started.length < 64) && decide (0 < r.room) &&
  ((callOf r.frames).isSome || decide (lenOf b ≤ r.room)) && (above || r.busy.isEmpty) &&
  (s.slotsNamed p b).all fun sl => !s.heldSlot p sl

/-- A command starts: its number and the state, its slots taken. -/
def State.begin (s : State) (p n : Nat) (b : List Byte) : Nat × State :=
  let k := (s.part p).nextK
  let r := s.ring p n
  let m := min (lenOf b) r.room
  -- the commands behind a wait that a drain gave back have run (R51)
  let e := match r.past with | some e => e | none => r.pos + m
  let took := if (callOf r.frames).isSome then e - r.pos else modSub two32 e r.pos
  let c : Cmd := { ring := n, bytes := b, slots := if r.frames.isEmpty then took else 0, inRing := r.frames.isEmpty }
  let s := s.updPart p fun x => { x with nextK := k + 1, cmds := Tab.set {} x.cmds k c }
  (k, s.updRing p n fun r => { (r.setPos e).pass with started := r.started ++ [k], past := none })

/-- The slots of the next command can be read: 0, or the code of R294 with the slot's address. -/
def State.slotCode (s : State) (p n : Nat) (b : List Byte) : Nat × Nat :=
  let r := s.ring p n
  let bad := (List.range (min (lenOf b) r.room)).findSome? fun j =>
    let (sl, va) := r.addr (r.pos + j)
    match s.xlate (tlbCp p) p sl va with
    | some { loc := .dev a, r := true, .. } => if s.poisonAt a then some (4, va) else none
    | _ => some (3, va)
  match bad with
  | some e => e
  | none => if lenOf b > r.room then (1, 0) else (0, 0)

/-- What a command carries and does: the flags and the least LEN it may have, its operand fields, and its effect given the
partition and its number. -/
structure CmdSpec where
  flags : Nat := 0
  min : Nat := 0
  used : List (Nat × Nat) := []
  sem : Nat → Nat → State → State

/-- A started command runs: its header and reserved bytes first (R292). -/
def CmdSpec.run (sp : CmdSpec) (p k : Nat) (s : State) : State :=
  let b := (s.cmd p k).bytes
  if cmdBad b sp.flags sp.min sp.used then s.fail p k 0x01 else sp.sem p k s

/-- A ring's next command, of the given opcode, starts. Where it cannot start now, nothing changes. -/
def ringCmd (sp : CmdSpec) (op p n : Nat) (c : List Byte) (s : State) : State :=
  let b := BitVec.ofNat 8 op :: c.drop 1
  let b := padTo (64 * lenOf b) b
  if s.canStart p n b then
    let (code, addr) := s.slotCode p n b
    let (k, s) := s.begin p n b
    if code = 0 then sp.run p k s else s.fail p k code addr
  else s

/-! Doorbells (R285). -/

def State.dbBad (s : State) (p : Nat) : State := s.updPart p fun x => { x with dbBad := satAdd 0xFFFFFFFF x.dbBad 1 }

/-- A doorbell of value v. -/
def State.doorbell (s : State) (p n v : Nat) : State :=
  let r := s.ring p n
  let fill := modSub two32 r.tail r.head
  let d := modSub two32 v r.tail
  if d = 0 then s
  else if fill ≤ r.grp.live.size && d ≤ r.grp.live.size - fill then
    let s := s.updRing p n fun r => { r with
      tail := v % two32, bells := r.bells ++ [(v % two32, s.tim.now)]
      wasFull := r.wasFull || fill + d == r.grp.live.size }
    s.moreSkip p n
  else s.dbBad p

/-! Loops (R305). -/

/-- The next m commands from position i: their slots, those not yet visible counted as 1 each, and whether all are visible. -/
def State.span (s : State) (p n : Nat) : Nat → Nat → Nat × Bool
  | 0, _ => (0, true)
  | m + 1, i =>
    let r := s.ring p n
    let left := match callOf r.frames with | some (_, _, e) => e - i | none => modSub two32 r.tail i
    if left = 0 || left > r.grp.live.size + two32 / 2 then (m + 1, false)
    else
      let l := s.lenAt p n i
      let (k, v) := s.span p n m (i + l)
      (l + k, v && decide (l ≤ left))

/-! Tensors whose pages go back (R253, R264, R267). -/

/-- The slots in which a tensor's leaves stand. -/
def State.tensorSlots (s : State) (p : Nat) (t : Tensor) : List Nat :=
  if bit t.flags 5 then (t.slots ++ s.slotsOn p).eraseDups else t.slots

/-- What a replica gives back (R272). -/
def Replica.gone (r : Replica) : List Gone := r.pages.map fun x => if r.scratch then .scratch x.1 x.2 else .page x.1 x.2

/-- A move that its tensor abandons gives back what it has built, and the seams that it has not entered. -/
def State.endMove (s : State) (p : Nat) : Option Move → State
  | none => s
  | some m => (m.dest.foldl (fun s i => s.dropEmpty p i) s).retirePages p m.built

/-- A tensor is gone: its leaves are withdrawn and its pages freed after the steps of R253; its number may be declared anew. -/
def State.dropTensor (s : State) (p t : Nat) : State :=
  let x := s.tensor p t
  let s := (s.tensorSlots p x).foldl (fun s sl => (s.unmap p sl x.va x.size).dropTlb p sl x.va x.size) s
  let s := s.updPlc p fun y => { y with tensors := Tab.clear (· == t) y.tensors }
  (s.retireGone p ((x.pages.map fun y => .page y.1 y.2) ++ x.replicas.flatMap Replica.gone)).endMove p x.move

/-- A release of a tensor that moves waits until the move ends (R283). -/
def State.freeTensor (s : State) (p t : Nat) : State :=
  if (s.tensor p t).moving then s.updTensor p t fun x => { x with releasing := true } else s.dropTensor p t

/-! Tallies (R307, R446). -/

/-- An open tally closes with the aborted flag: it and its activity wait for the window's end under a number of their own. -/
def State.abortTally (s : State) (p t : Nat) : State :=
  let en := (s.part p).en
  let x := Tab.get {} en.tallies t
  let t' := two32 + s.uid
  let key := fun (u k : Nat) => ((p + 1) * 2 ^ 40 + u) * 16 + k
  let act := (List.range 16).foldl (init := s.ckw.act) fun a k =>
    Tab.set 0 (Tab.set 0 a (key t' k) (Tab.get 0 a (key t k))) (key t k) 0
  let s := { s with uid := s.uid + 1, ckw := { s.ckw with act := act } }
  s.updPart p fun y => { y with en := { y.en with
    tallies := Tab.set {} (Tab.clear (· == t) y.en.tallies) t' { x with opened := false, aborted := true } } }

/-- The open tallies of a partition that satisfy a test close aborted. -/
def State.abortTallies (s : State) (p : Nat) (f : Tally → Bool) : State :=
  let ts := ((s.part p).en.tallies.filter fun e => e.2.opened && f e.2).map (·.1)
  ts.foldl (fun s t => s.abortTally p t) s

/-! Guilty rings (R316). -/

/-- A job with an attempt armed, running or deciding is joined again, its sums and verdicts discarded (R391, R394). -/
def Job.withdraw (j : Job) : Job :=
  match j.state with
  | .armed | .running | .deciding => { j with state := .joined, at_ := { j.at_ with sums := [], params := [], verdicts := [] } }
  | _ => j

/-- Kills gangs (R62, R127, R197): their slots are free at once, their stores, loads and waits are discarded; a HALT or step in progress
gives FREE (R95). -/
def State.killGangs (s : State) (f : Nat → Gang → Bool) : State :=
  let gs := (s.gangs.filter fun e => e.2.live && f e.1 e.2).map (·.1)
  let tags := s.subs.flatMap fun e => e.2.filterMap fun x => if gs.contains x.gang then x.tag else none
  let s := gs.foldl (init := s) fun s g =>
    if (s.gang g).mode = .halting || (s.gang g).mode = .stepping then s.dbgGone (s.gang g) else s
  let s := s.dropWaiters fun w => match w with | .load g _ _ => gs.contains g | _ => false
  let keep := fun (w : CvWait) => !gs.contains w.gang
  let quit := fun (_ : Nat) (c : Conveyor) => { c with pushers := c.pushers.filter keep, poppers := c.poppers.filter keep }
  let s := { s with
    subs := Tab.adjust [] (fun _ l => l.filter fun x => !gs.contains x.gang) s.subs
    gangs := Tab.clear gs.contains s.gangs
    fab := s.fab.forget fun t _ => tags.contains t
    parts := Tab.adjust {} (fun _ x => { x with plc := { x.plc with conveyors := Tab.adjust {} quit x.plc.conveyors } }) s.parts }
  s

/-- The cores of killed launches: runs stop, and barriers, arrays and the L1 are discarded (R137, R316 step 4). -/
def State.dropKernels (s : State) (p : Nat) (ks : List Nat) : State :=
  let drop := fun (_ : Nat) (y : Core) =>
    match y.kern with
    | some (q, k) => if q = p && ks.contains k then { y with kern := none, bars := [], units := [], l1 := [] } else y
    | none => y
  { s with cores := Tab.adjust {} drop s.cores }

/-- A binding of a launch ends; a conveyor released meanwhile frees its buffer (R267). -/
def State.unbind (s : State) (p : Nat) (k : Kernel) : State :=
  k.binds.foldl (init := s) fun s e =>
    match e.2 with
    | none => s
    | some b =>
      let s := s.updConv p b.conveyor fun x => { x with binders := x.binders - 1 }
      let c := s.conv p b.conveyor
      if !c.declared && c.binders = 0 then
        (s.updPlc p fun x => { x with conveyors := Tab.clear (· == b.conveyor) x.conveyors }).retirePages p c.pages
      else s

/-- Stops the copies and requests of commands (R197, R251, R316): engines become free. -/
def State.dropCopies (s : State) (p : Nat) (ks : List Nat) : State :=
  let s := s.dropWaiters fun w => match w with
    | .copy q k _ _ _ _ _ => q == p && ks.contains k
    | .head q k _ _ _ => q == p && ks.contains k
    | .xport q k => q == p && ks.contains k
    | .word q k _ => q == p && ks.contains k
    | _ => false
  { s with engines := s.engines.filter fun e => match e.2.busy with | some (q, k) => !(q == p && ks.contains k) | none => false }

/-- A pending commit of a ring group ends with ABORTED (R58). -/
def Group.abort {α : Type} (g : Group α) : Group α := if g.pend.isSome then { g with pend := none, status := 6 } else g

/-- HEAD after a guilty reset (R316 step 7): past every started command, and past an outermost LOOP with its body. -/
def State.guiltyHead (s : State) (p n : Nat) : Nat :=
  let r := s.ring p n
  match r.frames.getLast? with
  | some (.loop k st _ _ _) =>
    let outer := { r with frames := [] }
    let t := s.updRing p n fun _ => outer
    wrapAdd two32 st (min (t.span p n (u16 (s.cmd p k).bytes 26) st).1 (modSub two32 r.tail st))
  | _ => r.past.getD r.next

/-- HEAD has moved: the space interrupt is raised when it is due (R287). -/
def State.spaceCheck (s : State) (p n : Nat) : State :=
  let r := s.ring p n
  if r.wasFull && modSub two32 r.tail r.head ≤ r.grp.live.size / 2 then
    let s := s.updRing p n fun r => { r with wasFull := false }
    if r.spaceIrq then s.raise (s.sv.fn p) 2 else s
  else s

/-- A ring is marked guilty (R316): cause 1 trap, 2 agent, 3 driver, 4 port. A ring already guilty stays so. -/
def State.guilty (s : State) (p n cause : Nat) : State :=
  let r := s.ring p n
  if r.guilty then s
  else
    let ks := ((s.part p).cmds.filter fun e => e.2.ring == n).map (·.1)
    let sump := ks.any fun k => (s.cmd p k).wait == .sumpSpace
    let first := match r.started.head? with | some k => (s.cmd p k).seq | none => 0
    let head := s.guiltyHead p n
    let s := ks.foldl (fun s k => s.unbind p (s.cmd p k).kern) s
    let s := s.killGangs fun _ g => g.k.part == p && ks.contains g.k.cmd
    let s := (s.dropKernels p ks).dropCopies p ks
    let s := { s with jobs := Tab.adjust {} (fun _ j => if j.part = p && j.args.ring = n then j.withdraw else j) s.jobs }
    let ts := ((s.part p).plc.tensors.filter fun e => e.2.lifetime == 1 && e.2.ring == n).map (·.1)
    let s := ts.foldl (fun s t => s.freeTensor p t) s
    let s := s.abortTallies p fun t => t.ring == n
    let s := s.updPart p fun x => { x with
      cmds := Tab.clear ks.contains x.cmds, sumpLost := if sump then satAdd 0xFFFFFFFF x.sumpLost 1 else x.sumpLost }
    let s := s.updRing p n fun r => { r with
      guilty := true, head := head, next := head, skip := 0, past := none, frames := [], started := [], guiltySeq := first
      bells := r.bells.filter fun e => decide (0 < modSub two32 e.1 head ∧ modSub two32 e.1 head ≤ two32 / 2)
      grp := r.grp.abort }
    ((s.spaceCheck p n).report p 0x0004 3 n 0 (leBytes 4 first ++ leBytes 1 cause)).reclaim p

/-- Every ring of a partition is reset as guilty and left disabled (R320, R410). -/
def State.stopRings (s : State) (p cause : Nat) : State :=
  (List.range 8).foldl (fun s n => (s.guilty p n cause).updRing p n fun r => { r with enable := false }) s

/-! The completion record and the sump (R309 to R311). -/

/-- The record of a COMPLETE (R310). -/
def State.completion (s : State) (p k : Nat) (diverted : Bool) : List Byte :=
  let c := s.cmd p k
  let r := s.ring p c.ring
  let e := r.err
  let bad := e.count != 0
  leBytes 4 c.seq ++ leBytes 2 (pack [(0, b2n bad), (1, b2n diverted), (2, b2n r.resumed)]) ++ leBytes 1 p ++
  leBytes 1 c.ring ++ leBytes 4 (u32 c.bytes 4) ++ leBytes 4 (u32 c.bytes 28) ++ leBytes 8 c.stamp ++
  leBytes 8 (r.retired + 1) ++ leBytes 4 e.sq ++ leBytes 1 e.op ++ leBytes 1 e.code ++ leBytes 2 e.count ++
  leBytes 8 e.addr ++ leBytes 4 e.info ++ leBytes 4 0 ++ leBytes 8 (u64 c.bytes 16)

/-- The record has been written: the latched error and RESUMED clear, and VECTOR is raised (R404, R309). -/
def State.completed (s : State) (p k : Nat) : State :=
  let c := s.cmd p k
  let v := u8 c.bytes 25
  let q := s.sv.fn p
  let s := (s.updRing p c.ring fun r => { r with err := {}, resumed := false }).await p k .done
  if v = 0xFF then s
  else if 8 ≤ v && v < (if q % 16 = 0 then 64 else 16) then s.raise q v
  else s.updPort (q / 16) fun x => { x with badVector := satAdd 0xFF x.badVector 1 }

/-- A diverted record (R311): the sump, its full state, or its loss. -/
def State.divert (s : State) (p k : Nat) : State :=
  let x := s.part p
  let b := x.sump.live
  let n := (s.cmd p k).ring
  let lost := fun (s : State) =>
    ((s.updPart p fun x => { x with sumpLost := satAdd 0xFFFFFFFF x.sumpLost 1 }).raise (s.sv.fn p) 1).await p k .done
  if b.size = 0 then lost s
  else if modSub two32 x.sumpTail x.sumpHead ≥ b.size then s.await p k .sumpSpace
  else
    let va := b.base % 2 ^ 56 + 64 * (x.sumpTail % b.size)
    if !s.vwritable (tlbCp p) p (b.base / 2 ^ 56) va 64 then lost s
    else
      let s := s.cpWrite p n (s.cmdTally p k) (b.base / 2 ^ 56) va (s.completion p k true)
      let s := s.updPart p fun x => { x with sumpTail := wrapAdd two32 x.sumpTail 1 }
      (s.raise (s.sv.fn p) 1).completed p k

/-- A COMPLETE whose release has ended writes its record. -/
def State.complete (s : State) (p k : Nat) : State :=
  let c := s.cmd p k
  let va := u64 c.bytes 16
  let slot := u8 c.bytes 24
  let ok := va % 64 = 0 && (match s.xlate (tlbCp p) p slot va with
    | some { loc := .dev _, w := true, .. } => true
    | some { loc := .host i _ _, w := true, .. } => i == s.sv.port p
    | _ => false)
  if ok then (s.cpWrite p c.ring (s.cmdTally p k) slot va (s.completion p k false)).completed p k else s.divert p k

/-! XPORT (R406). -/

/-- A release with XPORT reads on each port that carried the ring's posted writes, and waits; without one to ask it goes on. -/
def State.xport (s : State) (p k : Nat) (go : State → State) : State :=
  let c := s.cmd p k
  let r := s.ring p c.ring
  if !bit (u8 c.bytes 1) 1 then go s
  else
    let s := s.updRing p c.ring fun r => { r with ports := 0 }
    let s := (setBits 2 r.ports).foldl (init := s) fun s i =>
      match s.hostAsk p i 0 0 (.xport p k) with
      | some t => t.updCmd p k fun c => { c with xports := c.xports + 1 }
      | none => s
    if (s.cmd p k).xports = 0 then go s else s.await p k .xport

end Sys2Proof.Machine
end

