-- ==== Sys2Proof/Machine/Place.lean ====
section
/-!
DEFINITION. The placement engine (R263 to R283, R523, R219 to R222): declarations, regions, districts, queries and pins.
-/

namespace Sys2Proof.Machine

/-- The 48-byte body of a placement command (R263, R308). -/
def State.body (s : State) (p k : Nat) : List Byte := slice (s.cmd p k).bytes 16 48

/-- Field checks of R268, in its order: the code of the first that fails; 0 when all pass. -/
def firstCode : List (Bool × Nat) → Nat
  | [] => 0
  | (b, c) :: t => if b then c else firstCode t

/-- Every unlisted byte of a body is zero. -/
def bodyZero (b : List Byte) (used : List (Nat × Nat)) : Bool := gapsZero b 0 used

/-- A pool-half base and size, 64 KiB-aligned, below bit 55 (R268). -/
def vaBad (va n : Nat) : Bool := va % 65536 != 0 || n % 65536 != 0 || decide (va ≥ 2 ^ 55 ∨ va + n > 2 ^ 55)

/-! Tensors (R264, R271, R272). -/

/-- The slots that a new tensor covers. -/
def State.covers (s : State) (p slot flags : Nat) : List Nat := if bit flags 5 then s.slotsOn p else [slot]

/-- The replicas of a partition, largest first, as (tensor, index); equal ones in the order of tensors, later replicas of a tensor first,
so that an index stands when those before it have gone. -/
def State.replicas (s : State) (p : Nat) : List (Nat × Nat) :=
  let l := (s.part p).plc.tensors.flatMap fun e => ((List.range e.2.replicas.length).reverse).map fun i => (e.1, i)
  l.foldl (init := []) fun o x =>
    let big := fun (y : Nat × Nat) => decide ((s.tensor p y.1).size ≥ (s.tensor p x.1).size)
    o.filter big ++ [x] ++ o.filter fun y => !big y

/-- A replica goes: what it holds follows the steps of R253 (R272). -/
def State.dropReplica (s : State) (p : Nat) (x : Nat × Nat) : State :=
  match (s.tensor p x.1).replicas[x.2]? with
  | none => s
  | some r => (s.updTensor p x.1 fun y => { y with replicas := y.replicas.eraseIdx x.2 }).retireGone p r.gone

/-- How many replicas must go, largest first, before a placement fits once all that is withdrawn is free. -/
def State.mustDrop (p : Nat) (fits : State → Bool) : List (Nat × Nat) → State → Option Nat
  | l, s =>
    if fits s then some 0
    else
      match l with
      | [] => none
      | x :: t => (State.mustDrop p fits t (s.dropReplica p x).settled).map (· + 1)

/-- Places an object, or fails with NO_CAPACITY and changes nothing (R264, R268, R272): what does not fit yet waits for pages that are
still being freed; when that is not enough, replicas go, largest first, as many as it takes. -/
def State.fit (s : State) (p k : Nat) (place : State → Option State) : State :=
  match place s with
  | some t => t.await p k .done
  | none =>
    match State.mustDrop p (fun s => (place s).isSome) (s.replicas p) s.settled with
    | none => s.fail p k 0x04
    | some n =>
      let s := ((s.replicas p).take n).foldl (fun s x => s.dropReplica p x) s
      if n = 0 then s.await p k .again
      else match place s with
        | some t => t.await p k .done
        | none => s.await p k .again

/-- Places and maps a tensor whose fields have passed (R264). -/
def State.declare (s : State) (p k : Nat) (pl : Pool) : State :=
  let b := s.body p k
  let flags := u8 b 6
  let va := u64 b 8
  let n := u64 b 16
  let slots := s.covers p (u8 b 1) flags
  s.fit p k fun s => (s.placePages p pl (u8 b 5) (n / 65536)).map fun (pages, s) =>
    let s := slots.foldl (fun s sl => s.mapPages p sl va pages true true (bit flags 3) (bit flags 4)) s
    s.updTensor p (u16 b 2) fun _ => {
      slot := u8 b 1, pool := u8 b 4, pattern := u8 b 5, flags := flags, va := va, size := n, lifetime := u8 b 24,
      ring := (s.cmd p k).ring, format := u8 b 7, stage := u8 b 25, pinned := bit flags 2, slots := slots,
      pages := pages }

def semTensor (p k : Nat) (s : State) : State :=
  let b := s.body p k
  let id := u16 b 2
  let flags := u8 b 6
  let va := u64 b 8
  let n := u64 b 16
  let st := u8 b 25
  if id = 0 || decide (u8 b 5 > 2) || decide (flags ≥ 64) || decide (u8 b 7 > 8) || vaBad va n || decide (u8 b 4 > 15) ||
     decide (u8 b 24 > 1) || (decide (st > 63) && st != 0xFF) || !bodyZero b [(0, 26)] then s.fail p k 0x01
  else if n = 0 then s
  else
    let plc := (s.part p).plc
    let code := firstCode [
      (!s.asOn p (u8 b 1) || (s.sv.pool p (u8 b 4)).isNone, 0x03),
      (bit flags 1 && !s.sv.grant p 0, 0x06),
      ((plc.tensors.any fun e => e.1 == id) || (s.covers p (u8 b 1) flags).any fun sl => s.mapped p sl va n, 0x02)]
    match code, s.sv.pool p (u8 b 4) with
    | 0, some pl => s.declare p k pl
    | _, _ => s.fail p k code

/-! Districts (R265, R269, R271, R523). -/

/-- A stage as R523 sizes it: number, limit, WORK and size. -/
structure Share where
  id : Nat
  lim : Nat
  work : Nat
  size : Nat

def Share.isOpen (x : Share) : Bool := x.work != 0 && decide (x.size < x.lim)

/-- Steps 2 and 3: the sizes and the cores left. -/
def grow : Nat → Nat → List Share → Nat × List Share
  | 0, l, xs => (l, xs)
  | f + 1, l, xs =>
    let w := (xs.map fun x => if x.isOpen then x.work else 0).sum
    if w = 0 || l = 0 then (l, xs)
    else
      let give := fun (x : Share) => if x.isOpen then min (l * x.work / w) (x.lim - x.size) else 0
      let g := (xs.map give).sum
      if g = 0 then (l, xs) else grow f (l - g) (xs.map fun x => { x with size := x.size + give x })

/-- Inserts a stage before those of smaller remainder (step 4). -/
def insertShare (key : Share → Nat) (x : Share) : List Share → List Share
  | [] => [x]
  | y :: t => if key y ≥ key x then y :: insertShare key x t else x :: y :: t

/-- Step 4. -/
def growRest (l : Nat) (xs : List Share) : List Share :=
  let w := (xs.map fun x => if x.isOpen then x.work else 0).sum
  if w = 0 then xs
  else
    let order := (xs.filter Share.isOpen).foldl (fun o x => insertShare (fun y => l * y.work % w) x o) []
    let got := (order.take l).map (·.id)
    xs.map fun x => if got.contains x.id then { x with size := x.size + 1 } else x

/-- Step 6: one core each in ascending order, cycling, until the districts hold m cores. -/
def growMin : Nat → Nat → List Share → List Share
  | 0, _, xs => xs
  | f + 1, m, xs =>
    if (xs.map (·.size)).sum ≥ m then xs
    else
      match xs.filter fun x => decide (x.size < x.lim) with
      | [] => xs
      | o =>
        let need := m - (xs.map (·.size)).sum
        let got := (o.take need).map (·.id)
        growMin f m (xs.map fun x => if got.contains x.id then { x with size := x.size + 1 } else x)

/-- The declared stages of a partition. -/
def State.stages (s : State) (p : Nat) : List (Nat × Stage) := (s.part p).plc.stages.filter fun e => e.2.declared

/-- The cores of released stages whose launches are still in flight (R267). -/
def State.oldCores (s : State) (p : Nat) : Nat := (s.part p).plc.oldDistricts.foldl (fun m e => m ||| e.2) 0

/-- The cores of a partition's districts, but for one stage's. -/
def State.coresBut (s : State) (p i : Nat) : Nat :=
  (s.part p).plc.stages.foldl (fun m e => if e.1 = i then m else m ||| e.2.district) (s.oldCores p)

/-- The initial sizes of every district (R523); cores of released stages still count against MAX_CORES (R269). -/
def State.sizes (s : State) (p : Nat) : List Share :=
  let xs := (s.stages p).map fun e =>
    { id := e.1, lim := min e.2.max (s.sv.maxDistrict p), work := e.2.work, size := e.2.min : Share }
  let held := popc 576 (s.oldCores p)
  let (l, xs) := grow 600 (s.sv.maxCores p - (xs.map (·.size)).sum - held) xs
  growMin 600 (s.sv.minCores p - held) (growRest l xs)

/-- Cores of the partition in no district. -/
def State.freeCores (s : State) (p : Nat) : List Nat :=
  let used := s.coresBut p 64
  (setBits 576 (s.sv.eligible p)).filter fun c => !bit used c

/-- n more cores for a district (R271): the tiers with the most free cores first, ties to the lower tier; within a tier the
lowest-numbered. -/
def takeCores (free : List Nat) (n : Nat) : List Nat :=
  let cnt := fun (t : Nat) => (free.filter fun c => c / 144 == t).length
  let order := [0, 1, 2, 3].foldl (init := ([] : List Nat)) fun o t =>
    (o.filter fun u => decide (cnt u ≥ cnt t)) ++ [t] ++ (o.filter fun u => decide (cnt u < cnt t))
  (order.flatMap fun t => free.filter fun c => c / 144 == t).take n

/-- Gives a district its size: cores beyond it leave, the highest-numbered first (log entry 14); missing ones join, while the partition's
districts hold fewer than MAX_CORES (R269). -/
def State.resize (s : State) (p i n : Nat) : State :=
  let d := setBits 576 (s.stg p i).district
  if n ≤ d.length then s.updStage p i fun x => { x with district := maskOf (d.take n), size := n }
  else
    let room := s.sv.maxCores p - popc 576 (s.coresBut p 64)
    s.updStage p i fun x => { x with
      district := maskOf (d ++ takeCores (s.freeCores p) (min room (n - d.length))), size := n }

/-- The initial districts are computed anew (R523): districts that shrink give their cores first. -/
def State.redistrict (s : State) (p : Nat) : State :=
  let xs := s.sizes p
  let big := fun (s : State) (x : Share) => decide (popc 576 (s.stg p x.id).district > x.size)
  let s := (xs.filter (big s)).foldl (fun s x => s.resize p x.id x.size) s
  (xs.filter fun x => !big s x).foldl (fun s x => s.resize p x.id x.size) s

def semStage (p k : Nat) (s : State) : State :=
  let b := s.body p k
  let i := u8 b 1
  let lo := u16 b 2
  let hi := u16 b 4
  if decide (i > 63) || lo = 0 || decide (hi < lo) || decide (u8 b 6 > 1) || !bodyZero b [(0, 7), (8, 8)] then s.fail p k 0x01
  else
    let mins := ((s.stages p).map fun e => e.2.min).sum + lo
    let code := firstCode [((s.stg p i).declared, 0x02), (decide (hi > s.sv.maxDistrict p ∨ mins > s.sv.maxCores p), 0x05)]
    if code != 0 then s.fail p k code
    else
      let s := s.updStage p i fun _ =>
        { declared := true, min := lo, max := hi, work := u64 b 8, pinned := bit (u8 b 6) 0 : Stage }
      s.redistrict p

/-- The launches in flight that name a stage. -/
def State.stageRuns (s : State) (p i : Nat) : List Nat :=
  ((s.part p).cmds.filter fun c => c.2.op == 1 && c.2.gangs != 0 && c.2.kern.stage == i).map (·.1)

/-- RELEASE of a stage (R267): its district stays held until its launches have retired; the other districts are computed anew (R523). -/
def State.dropStage (s : State) (p i : Nat) : State :=
  let ks := s.stageRuns p i
  let d := (s.stg p i).district
  (s.updPlc p fun x => { x with
    stages := Tab.clear (· == i) x.stages
    oldDistricts := if ks.isEmpty then x.oldDistricts else x.oldDistricts ++ [(ks, d)] }).redistrict p

/-- Launches of released stages have retired: their districts are free, and districts that lack cores take them (R267, R271). -/
def State.stageGone (s : State) (p : Nat) : State :=
  let runs := fun (e : List Nat × Nat) => e.1.any fun k => (s.part p).cmds.any fun c => c.1 == k
  let old := (s.part p).plc.oldDistricts
  if old.all runs then s
  else
    let s := s.updPlc p fun x => { x with oldDistricts := old.filter runs }
    (s.stages p).foldl (fun s e => if popc 576 e.2.district < e.2.size then s.resize p e.1 e.2.size else s) s

/-! Conveyors (R266). -/

/-- Bytes of an entry per lane. -/
def cvBytes (w : Nat) : Nat := 4 * 2 ^ w

/-- The scratch grant in use: (scratch offset, bytes), with what is given back after the steps of R253. -/
def State.grantUsed (s : State) (p : Nat) : List (Nat × Nat) :=
  let plc := (s.part p).plc
  (plc.conveyors.filterMap fun e => if e.2.inScratch then some (e.2.base, e.2.depth * cvBytes e.2.width) else none) ++
  (plc.tensors.flatMap fun e =>
    (match e.2.move with | some { kind := .scratch a, .. } => [(a, e.2.size)] | _ => []) ++
    e.2.replicas.flatMap fun r => if r.scratch then r.pages else []) ++
  plc.zeroing.filterMap fun e => match e.2 with | .scratch a n => some (a, n) | .page _ _ => none

/-- The grant that PLC_SCRATCH_GRANT asks for, in bytes (R282). -/
def State.grantAsked (s : State) (p : Nat) : Nat := min ((s.part p).plc.grant * 2 ^ 20) (s.scratchSize p)

/-- The grant in force: what the engine still holds below a smaller grant is evicted first (R282). -/
def State.grantSize (s : State) (p : Nat) : Nat :=
  (s.grantUsed p).foldl (fun m u => max m (s.scratchSize p - u.1)) (s.grantAsked p)

/-- The part of the grant that the engine may use: what the last write added only once every launch begun before it has retired
(R282). -/
def State.grantOpen (s : State) (p : Nat) : Nat :=
  let plc := (s.part p).plc
  if plc.grantAfter.any fun k => (s.part p).cmds.any fun c => c.1 == k
  then min (plc.grantWas * 2 ^ 20) (s.grantAsked p) else s.grantAsked p

/-- The lowest scratch offset at which n bytes fit in the grant. -/
def State.grantFit (s : State) (p n : Nat) : Option Nat :=
  let base := s.scratchSize p - s.grantOpen p
  let used := s.grantUsed p
  (base :: used.map fun u => u.1 + u.2).find? fun a =>
    decide (base ≤ a ∧ a + n ≤ s.scratchSize p) && used.all fun u => decide (a + n ≤ u.1 ∨ u.1 + u.2 ≤ a)

/-- The device physical address of a buffer's first byte. -/
def State.bufBase (s : State) (p : Nat) (pages : List (Nat × Nat)) : Nat :=
  match pages with
  | (i, t) :: _ => (s.seamPhys (s.seam p i) (t * 65536)).getD 0
  | [] => 0

def semConveyor (p k : Nat) (s : State) : State :=
  let b := s.body p k
  let i := u8 b 1
  let pr := u8 b 2
  let co := u8 b 3
  let w := u8 b 4
  let d := u8 b 5
  let rd := u16 b 6
  let stBad := fun (x : Nat) => decide (x > 63) && x != 0xFF
  let remote := pr == 0xFF || co == 0xFF
  if stBad pr || stBad co || (pr == 0xFF && co == 0xFF) || decide (w > 2) || decide (d < 8 ∨ d > 24) ||
     decide (rd ≥ 16384) || (!remote && rd != 0) || decide (u8 b 9 > 15) || !bodyZero b [(0, 10)] then s.fail p k 0x01
  else
    let known := fun (x : Nat) => x == 0xFF || (s.stg p x).declared
    let code := firstCode [
      (!known pr || !known co || (s.sv.pool p (u8 b 9)).isNone, 0x03),
      (remote && !s.sv.grant p 1, 0x06),
      ((s.part p).plc.conveyors.any fun e => e.1 == i, 0x02)]
    if code != 0 then s.fail p k code
    else
      let n := 2 ^ d * cvBytes w
      let c : Conveyor := {
        declared := true, producer := pr, consumer := co, width := w, depth := 2 ^ d, dev := rd, rconv := u8 b 8,
        pool := u8 b 9, far := remote, dead := remote && !Tab.get false s.fab.reach rd }
      if co = 0xFF then s.updConv p i fun _ => c
      else s.fit p k fun s =>
        match s.grantFit p n with
        | some a => some (s.updConv p i fun _ => { c with inScratch := true, base := a })
        | none =>
          match s.sv.pool p (u8 b 9) with
          | none => none
          | some pl => (s.placePages p pl 0 (ceilDiv n 65536)).map fun (pages, s) =>
            s.updConv p i fun _ => { c with base := s.bufBase p pages, pages := pages }

/-! Regions (R219, R221). -/

/-- Channels that may hold copy A of a region: live, and for a guarded region with a live partner (R201). -/
def State.regionChans (s : State) (guarded : Bool) : List Nat :=
  (List.range 512).filter fun c => (s.chan c).state == .live && (!guarded || (decide (c < 256) && (s.chan (c + 256)).state == .live))

/-- The lowest page free on a channel, and on its partner when guarded. -/
def State.regionPage (s : State) (guarded : Bool) (c : Nat) : Nat → Nat → Option Nat
  | 0, _ => none
  | f + 1, i => if s.pageFree c i && (!guarded || s.pageFree (c + 256) i) then some i else s.regionPage guarded c f (i + 1)

/-- Takes pages for a region, one for each channel of a list in order. -/
def State.regionTake (s : State) (guarded : Bool) : List Nat → Option (List (Nat × Nat) × State)
  | [] => some ([], s)
  | c :: t =>
    match s.regionPage guarded c ((s.chan c).pages - 512) 0 with
    | none => none
    | some i =>
      let s := s.takePage c i
      let s := if guarded then s.takePage (c + 256) i else s
      (s.regionTake guarded t).map fun (l, s) => ((c, i) :: l, s)

/-- Gives back a region's pages, zeroed (R221). -/
def State.regionFree (s : State) (r : Nat) (guarded : Bool) : State :=
  (s.region r).frames.foldl (init := s) fun s f =>
    let s := s.givePage f.1 f.2
    if guarded then s.givePage (f.1 ^^^ 256) f.2 else s

/-- Places a region on live channels, both copies zeroed (R219): one seam over the first 2^n channels that its pages fill
evenly, stride 4 KiB (log entry 15). -/
def State.regionPlace (s : State) (d : RegionDef) : Option State :=
  let m := d.size2m * 32
  let cs := firstPow2 (s.regionChans d.guarded)
  let n := Nat.gcd cs.length (2 ^ Nat.log2 (Nat.gcd m (2 ^ 40)))
  if n = 0 then none
  else
    let cs := cs.take n
    (s.regionTake d.guarded ((List.range (m / n)).flatMap fun _ => cs)).map fun (l, s) =>
      let s := l.foldl (fun s f => (s.zeroPage f.1 f.2).zeroPage (if d.guarded then f.1 + 256 else f.1) f.2) s
      s.updRegion d.region fun x => { x with state := .loading, chans := cs, stride := 12, frames := l }

/-- The seam number under which a partition maps a region; a new one when it maps it nowhere yet. -/
def State.regionSeam (s : State) (p r : Nat) : Option (Nat × State) :=
  match (s.part p).plc.seams.find? fun e => e.2.region == some r with
  | some e => some (e.1, s)
  | none => (s.seamNumber p).map fun i => (i, s.updSeam p i fun x => { x with region := some r })

/-- The partitions that map a region. -/
def State.regionParts (s : State) (r : Nat) : List Nat :=
  (s.parts.filter fun e => e.2.plc.regionMaps.any fun m => m.2.2 == r).map (·.1)

/-- A region's earlier pages leave it at a LOAD, under the steps of R253 of every partition that maps it; until its new pages are placed
it is EMPTY (R219, R267; log entry 15). -/
def State.regionLeave (s : State) (d : RegionDef) : State :=
  let pages := (s.region d.region).frames.flatMap fun f => if d.guarded then [f, (f.1 ^^^ 256, f.2)] else [f]
  ((s.updRegion d.region fun x => { state := .empty, fixes := x.fixes }).leave (s.regionParts d.region) pages).2

/-- Maps a region at a virtual address of a slot. -/
def State.regionMap (s : State) (p slot va i : Nat) (d : RegionDef) (w : Bool) : State :=
  let s := s.mapPages p slot va ((List.range (d.size2m * 32)).map fun t => (i, t)) true w false false
  s.updPlc p fun x => { x with regionMaps := x.regionMaps ++ [(slot, va, d.region)] }

/-- Withdraws a partition's mappings of a region. -/
def State.regionUnmap (s : State) (p : Nat) (d : RegionDef) : State :=
  let own := (s.part p).plc.regionMaps.filter fun m => m.2.2 == d.region
  let n := d.size2m * 2 ^ 21
  let s := own.foldl (fun s m => (s.unmap p m.1 m.2.1 n).dropTlb p m.1 m.2.1 n) s
  s.updPlc p fun x => { x with regionMaps := x.regionMaps.filter fun m => m.2.2 != d.region }

def semRegionLoad (p k : Nat) (s : State) : State :=
  let b := s.body p k
  let slot := u8 b 1
  let va := u64 b 8
  match s.sv.region (u16 b 2) with
  | none => s.fail p k (if vaBad va 0 || !bodyZero b [(0, 4), (8, 8)] then 0x01 else 0x03)
  | some d =>
    let n := d.size2m * 2 ^ 21
    if vaBad va n || !bodyZero b [(0, 4), (8, 8)] then s.fail p k 0x01
    else
      let st := (s.region d.region).state
      let t := s.regionUnmap p d
      let code := firstCode [(!s.asOn p slot, 0x03), (d.owner != p, 0x06), (st == .absent || st == .loading, 0x07),
                             (t.mapped p slot va n, 0x02)]
      if code != 0 then s.fail p k code
      else
        -- the region is placed on free pages and on those it gives up
        let place := fun (s : State) => do
          let s ← s.regionPlace d
          let (i, s) ← s.regionSeam p d.region
          some (s.regionMap p slot va i d true)
        let held := !(s.region d.region).frames.isEmpty
        let parts := s.regionParts d.region
        if held && !parts.all s.canBump then s.await p k .again
        else if held && (State.mustDrop p (fun s => (place s).isSome) (s.replicas p) (t.regionLeave d).settled).isNone then s.fail p k 0x04
        else (if held then (s.regionLeave d).regionUnmap p d else t).fit p k place

def semRegionMap (p k : Nat) (s : State) : State :=
  let b := s.body p k
  let slot := u8 b 1
  let va := u64 b 8
  match s.sv.region (u16 b 2) with
  | none => s.fail p k (if vaBad va 0 || !bodyZero b [(0, 4), (8, 8)] then 0x01 else 0x03)
  | some d =>
    let n := d.size2m * 2 ^ 21
    if vaBad va n || !bodyZero b [(0, 4), (8, 8)] then s.fail p k 0x01
    else
      let st := (s.region d.region).state
      let code := firstCode [(!s.asOn p slot, 0x03), (!bit d.readers p, 0x06), (st == .absent || st == .empty, 0x07),
                             (s.mapped p slot va n, 0x02)]
      if code != 0 then s.fail p k code
      else
        match s.regionSeam p d.region with
        | none => s.fail p k 0x04
        | some (i, s) => s.regionMap p slot va i d false

/-- Clears W in the leaves of a range. -/
def State.seal (s : State) (p slot va n : Nat) : State :=
  let k := pageKey slot va
  s.updPart p fun x => { x with table := Tab.adjust 0 (fun i w =>
    if k ≤ i ∧ i < k + n / 65536 ∧ bit w 5 then w - 32 else w) x.table }

/-- Some line of a region is poisoned, in the copy that serves it. -/
def State.regionPoison (s : State) (r : Nat) : Bool :=
  (s.region r).frames.any fun f => s.mem.poison.any fun e => e.1 / 512 == s.readAt (paOf f.1 f.2 0) / 65536

/-- SEAL of a region (R221), once the owner's writes have drained. -/
def State.sealRegion (s : State) (r : Nat) : State :=
  match s.sv.region r with
  | none => s
  | some d =>
    let two := (s.region r).frames.all fun f => (s.chan f.1).state != .dead && (s.chan (f.1 ^^^ 256)).state != .dead
    if s.regionPoison r then s.condemn r
    else s.updRegion r fun x => { x with state := if d.guarded then (if two then .guarded else .exposed) else .unguarded }

def semSeal (p k : Nat) (s : State) : State :=
  let b := s.body p k
  let what := u8 b 1
  let id := u16 b 2
  if (what != 1 && what != 5) || !bodyZero b [(0, 4)] then s.fail p k 0x01
  else if what = 1 then
    let x := s.tensor p id
    if !(s.part p).plc.tensors.any fun e => e.1 == id then s.fail p k 0x03
    else if x.sealed then s.fail p k 0x07
    else if x.moving || !s.canBump p then s.await p k .again
    else
      let s := (s.tensorSlots p x).foldl (fun s sl => (s.seal p sl x.va x.size).dropTlb p sl x.va x.size) s
      let (e, s) := (s.updTensor p id fun y => { y with sealed := true }).bump p
      s.await p k (.epoch e)
  else
    match s.sv.region id with
    | none => s.fail p k 0x03
    | some d =>
      if d.owner != p then s.fail p k 0x06
      else if (s.region id).state != .loading then s.fail p k 0x07
      else if !s.canBump p then s.await p k .again
      else
        let own := (s.part p).plc.regionMaps.filter fun m => m.2.2 == id
        let n := d.size2m * 2 ^ 21
        let s := own.foldl (fun s m => (s.seal p m.1 m.2.1 n).dropTlb p m.1 m.2.1 n) s
        let (e, s) := s.bump p
        s.await p k (.epoch e)

/-! RELEASE (R267). -/

/-- A conveyor is closed (R126) and its buffer freed when no launch binds it. -/
def State.freeConveyor (s : State) (p i : Nat) : State :=
  let c := s.conv p i
  let s := s.updConv p i fun x => { x with declared := false, closed := true }
  if c.binders = 0 then (s.updPlc p fun x => { x with conveyors := Tab.clear (· == i) x.conveyors }).retirePages p c.pages else s

/-- RELEASE; `close` is what closing a conveyor does to its waiting pops and its far end. -/
def semRelease (close : Nat → Nat → State → State) (p k : Nat) (s : State) : State :=
  let b := s.body p k
  let what := u8 b 1
  let id := u16 b 2
  if (what != 1 && what != 3 && what != 4) || !bodyZero b [(0, 4)] then s.fail p k 0x01
  else if what = 1 then
    let x := s.tensor p id
    if !((s.part p).plc.tensors.any fun e => e.1 == id) || x.releasing then s.fail p k 0x03
    else if x.moving || !s.canBump p then s.await p k .again
    else (s.dropTensor p id).await p k (.epoch (s.part p).epoch)
  else if what = 3 then
    if !(s.stg p id).declared then s.fail p k 0x03
    else s.dropStage p id
  else if !(s.conv p id).declared then s.fail p k 0x03
  else (close p id s).freeConveyor p id

/-! PLACE_QUERY and PLACE_PIN (R279, R280). -/

/-- The seam offset at which member j of group g holds offset `off` of its page (R200, read backward). -/
def seamUnplace (n t g j off : Nat) : Nat :=
  let q := off / 2 ^ t
  g * 2 ^ (16 + n) + (q * 2 ^ n + (j ^^^ foldBits n 64 q)) * 2 ^ t + off % 2 ^ t

/-- Some line of a page of a seam is poisoned. -/
def State.pagePoison (s : State) (p i t : Nat) : Bool :=
  let sm := s.seam p i
  let d := sm.d
  let n := Nat.log2 d.chans.length
  d.frames.any fun f =>
    match f.2, d.chans[f.1 % 2 ^ n]? with
    | pg + 1, some c => decide (f.1 / 2 ^ n = t / 2 ^ n) && ((s.chan c).state == .dead || s.mem.poison.any fun e =>
        e.1 / 512 == paOf c pg 0 / 65536 && seamUnplace n d.stride (f.1 / 2 ^ n) (f.1 % 2 ^ n) (e.1 % 512 * 128) / 65536 == t)
    | _, _ => false

/-- QFLAGS of R279. -/
def qflags (pinned moving deciding replicated replaced poisoned : Bool) : Nat :=
  pack [(0, b2n pinned), (1, b2n moving), (2, b2n deciding), (3, b2n replicated), (4, b2n replaced), (5, b2n poisoned)]

/-- The placement record of an object (R279); none when it is undeclared. -/
def State.placement (s : State) (p what id : Nat) : Option (List Byte) :=
  let plc := (s.part p).plc
  let rec_ := fun (q changes at_ : Nat) (detail map : List Byte) =>
    some (leBytes 1 what ++ leBytes 1 q ++ leBytes 2 id ++ leBytes 4 changes ++ leBytes 8 at_ ++ padTo 40 detail ++ padTo 72 map)
  match what with
  | 1 =>
    if !plc.tensors.any fun e => e.1 == id then none
    else
      let x := s.tensor p id
      let pages := if x.moving then x.was else x.pages
      let seams := (pages.map (·.1)).eraseDups
      let ids := (List.range 16).flatMap fun i => leBytes 1 (seams.getD i 0xFF)
      let chans := seams.foldl (fun m i => m ||| maskOf (s.seam p i).d.chans) 0
      rec_ (qflags (x.pinned || plc.pinnedAll) x.moving (decide (1 ≤ x.gains ∧ x.gains ≤ 3)) (!x.replicas.isEmpty) x.replaced
          (pages.any fun t => s.pagePoison p t.1 t.2)) x.changes x.changedAt
        (leBytes 1 seams.length ++ leBytes 1 x.replicas.length ++ leBytes 2 0 ++ ids) (leBytes 64 chans)
  | 3 =>
    let x := s.stg p id
    if !x.declared then none
    else
      let cs := setBits 576 x.district
      let tier := fun (t : Nat) => leBytes 2 (cs.filter fun c => c / 144 == t).length
      rec_ (qflags (x.pinned || plc.pinnedAll) false (decide (1 ≤ x.gains ∧ x.gains ≤ 3)) false false false) x.changes x.changedAt
        (leBytes 2 cs.length ++ tier 0 ++ tier 1 ++ tier 2 ++ tier 3) (leBytes 72 x.district)
  | 4 =>
    let c := s.conv p id
    if !c.declared then none
    else
      let n := c.depth * cvBytes c.width
      let poison := c.pages.any (fun x => s.pagePoison p x.1 x.2) ||
        (c.inScratch && s.mem.l2sPoison.any fun e => decide (l2sKey p c.base ≤ 8 * e.1 ∧ 8 * e.1 < l2sKey p c.base + n))
      rec_ (qflags false (!c.via.isEmpty) false false c.replaced poison) c.changes c.changedAt
        (leBytes 1 (if c.inScratch then 1 else 2) ++ leBytes 3 0 ++ leBytes 8 (if c.via.isEmpty then c.base else c.base0)) []
  | _ =>
    let x := s.seam p id
    let (chans, stride, n) := match x.region with
      | some r => ((s.region r).chans, (s.region r).stride, (s.region r).frames.length)
      | none => (x.d.chans, x.d.stride, if x.active then x.used0 else x.used.length)
    let poison := match x.region with
      | some r => s.regionPoison r
      | none => x.used.any fun e => s.pagePoison p id e.1
    if chans.isEmpty then none
    else rec_ (qflags (s.seamPinned p id) x.active false false x.replaced poison) x.changes x.changedAt
      (leBytes 1 (Nat.log2 chans.length) ++ leBytes 1 stride ++ leBytes 1 x.pool ++ leBytes 1 0 ++ leBytes 4 n)
      (leBytes 64 (maskOf chans))

def semQuery (p k : Nat) (s : State) : State :=
  let b := s.body p k
  let what := u8 b 1
  let id := u16 b 2
  let slot := u8 b 4
  let dest := u64 b 8
  if u8 b 0 != 0 || !(what == 1 || what == 3 || what == 4 || what == 8) || decide (dest % 128 ≠ 0 ∨ dest ≥ 2 ^ 55) ||
     !bodyZero b [(0, 5), (8, 8)] then s.fail p k 0x01
  else
    match s.placement p what id with
    | none => s.fail p k 0x03
    | some r =>
      if !s.asOn p slot || !s.vwritable (tlbCp p) p slot dest 128 then s.fail p k 0x03 dest
      else
        let s := s.cpWrite p (s.cmd p k).ring (s.cmdTally p k) slot dest r
        match what with
        | 1 => s.updTensor p id fun x => { x with replaced := false }
        | 4 => s.updConv p id fun x => { x with replaced := false }
        | 8 => s.updSeam p id fun x => { x with replaced := false }
        | _ => s

/-- A pin drops a change already decided (R280, R283). -/
def semPin (p k : Nat) (s : State) : State :=
  let b := s.body p k
  let what := u8 b 1
  let id := u16 b 2
  let on := u8 b 4 == 1
  if u8 b 0 != 0 || !(what == 0 || what == 1 || what == 3) || decide (u8 b 4 > 1) || !bodyZero b [(0, 5)] then s.fail p k 0x01
  else
    let known := match what with
      | 1 => (s.part p).plc.tensors.any fun e => e.1 == id
      | 3 => (s.stg p id).declared
      | _ => true
    let code := firstCode [(!known, 0x03), (!bit (s.sv.pflags p) 2, 0x08)]
    if code != 0 then s.fail p k code
    else
      let tn := fun (x : Tensor) => { x with prop := if on then none else x.prop, decided := x.decided && !on, gains := if on then 0 else x.gains }
      let sg := fun (x : Stage) => { x with prop := if on then none else x.prop, decided := x.decided && !on, gains := if on then 0 else x.gains }
      match what with
      | 1 => s.updTensor p id fun x => { (tn x) with pinned := on }
      | 3 => s.updStage p id fun x => { (sg x) with pinned := on }
      | _ => s.updPlc p fun x => { x with
          pinnedAll := on, tensors := Tab.adjust {} (fun _ y => tn y) x.tensors, stages := Tab.adjust {} (fun _ y => sg y) x.stages }

/-! The rows. -/

/-- A placement declaration of a KIND (R263). -/
def placeCmd (sem : Nat → Nat → State → State) (kind p n : Nat) (c : List Byte) (s : State) : Host.Outcome State Fault Refusal :=
  let c := padTo (max 64 c.length) c
  .next (ringCmd { used := [(16, 48)], sem := sem } 0x11 p n (c.take 16 ++ [BitVec.ofNat 8 kind] ++ c.drop 17) s)

def execTensor (p n : Nat) (c : List Byte) (s : State) : Host.Outcome State Fault Refusal := placeCmd semTensor 1 p n c s
def execStage (p n : Nat) (c : List Byte) (s : State) : Host.Outcome State Fault Refusal := placeCmd semStage 3 p n c s
def execConveyor (p n : Nat) (c : List Byte) (s : State) : Host.Outcome State Fault Refusal := placeCmd semConveyor 4 p n c s
def execRegionLoad (p n : Nat) (c : List Byte) (s : State) : Host.Outcome State Fault Refusal := placeCmd semRegionLoad 5 p n c s
def execSeal (p n : Nat) (c : List Byte) (s : State) : Host.Outcome State Fault Refusal := placeCmd semSeal 6 p n c s
def execRegionMap (p n : Nat) (c : List Byte) (s : State) : Host.Outcome State Fault Refusal := placeCmd semRegionMap 7 p n c s

def execPlaceQuery (p n : Nat) (c : List Byte) (s : State) : Host.Outcome State Fault Refusal :=
  .next (ringCmd { used := [(16, 48)], sem := semQuery } 0x12 p n c s)
def execPlacePin (p n : Nat) (c : List Byte) (s : State) : Host.Outcome State Fault Refusal :=
  .next (ringCmd { used := [(16, 48)], sem := semPin } 0x13 p n c s)

end Sys2Proof.Machine
end

