-- ==== Sys2Proof/Machine/Moves.lean ====
section
/-!
DEFINITION. The placement engine's changes and moves (R270 to R278, R280 to R283): Crew's proposals, evaluations, unforced moves of
tensors, forced moves of seams, and the scratch grant.
-/

namespace Sys2Proof.Machine

/-! Crew's proposals and evaluations (R270, R272, R273). -/

def State.maskRefusal (s : State) (p kind : Nat) : State :=
  let s := s.updPlc p fun x => { x with refusals := satAdd 0xFFFFFFFF x.refusals 1 }
  s.reportDev 0x0017 0 0 0 (leBytes 1 p ++ leBytes 1 kind) false false

/-- The channels and stride that a proposal may give an object of a pool (R269). -/
def State.seamOk (s : State) (p pool : Nat) (chans : List Nat) (stride : Nat) : Bool :=
  match s.sv.pool p pool with
  | none => false
  | some pl => isPow2 chans.length && chans.Pairwise (· < ·) && chans.all (s.poolChans pl).contains &&
      decide (pl.smin ≤ stride ∧ stride ≤ pl.smax)

/-- The most cores that the declared stages may hold together (R269). -/
def State.stageLimit (s : State) (p : Nat) : Nat := ((s.stages p).map fun e => min e.2.max (s.sv.maxDistrict p)).sum

/-- The partition and kind of a proposal, and whether it stays within the limits of R269. -/
def State.proposalOk (s : State) : Proposal → Nat × Nat × Bool
  | .reseam p t chans stride =>
    (p, 1, (s.part p).plc.tensors.any (·.1 == t) && s.seamOk p (s.tensor p t).pool chans stride)
  | .addReplica p t chans stride scratch =>
    let x := s.tensor p t
    (p, 2, (s.part p).plc.tensors.any (·.1 == t) && x.sealed && bit x.flags 0 &&
      decide (x.replicas.length < s.sv.maxReplicas p) &&
      (if scratch then bit (s.sv.pflags p) 0 && (s.grantFit p x.size).isSome else s.seamOk p x.pool chans stride))
  | .dropReplica p t i => (p, 3, decide (i < (s.tensor p t).replicas.length))
  | .district p i cores =>
    let x := s.stg p i
    let others := s.coresBut p i
    let n := cores.length + popc 576 others
    (p, 4, x.declared && cores.Pairwise (· < ·) && cores.all (fun c => bit (s.sv.eligible p) c && !bit others c) &&
      decide (x.min ≤ cores.length ∧ cores.length ≤ min x.max (s.sv.maxDistrict p)) &&
      decide (min (s.sv.minCores p) (s.stageLimit p) ≤ n ∧ n ≤ s.sv.maxCores p))

/-- CREW_PROPOSAL (R270): a proposal within the masks is weighed at the evaluations that follow; another is counted. -/
def execCrewProposal (d : Proposal) (s : State) : Host.Outcome State Fault Refusal :=
  if !s.dpt.crewUp then .next s
  else
    let (p, kind, ok) := s.proposalOk d
    if !ok then .next (s.maskRefusal p kind)
    else
      let put := fun (t : Nat) (c : Change) => s.updTensor p t fun x =>
        if x.prop = some c then x else { x with prop := some c, gains := 0, decided := false }
      .next (match d with
        | .reseam _ t chans stride => put t (.seam chans stride)
        | .addReplica _ t chans stride sc => put t (.add chans stride sc)
        | .dropReplica _ t i => put t (.drop i)
        | .district _ i cores => s.updStage p i fun x =>
            if x.prop = some (maskOf cores) then x else { x with prop := some (maskOf cores), gains := 0, decided := false })

/-- One evaluation of an object (R273): the count of gains in a row and whether the change is decided. -/
def evaluate (gain gains : Nat) (decided : Bool) : Nat × Bool :=
  if gain < 10 then (0, false) else (min 4 (gains + 1), decided || decide (gains + 1 ≥ 4))

/-- The evaluation of a partition (R273): no estimate is stated, so each gain is an opaque value (log entry 16). -/
def State.evaluate (s : State) (p : Nat) : State :=
  if !s.dpt.crewUp then s
  else
    let plc := (s.part p).plc
    let n := plc.evals
    let tn := fun (t : Nat) (x : Tensor) =>
      if x.prop.isNone || x.pinned || plc.pinnedAll then x
      else let (g, d) := Machine.evaluate (Config.gain p t n) x.gains x.decided; { x with gains := g, decided := d }
    let sg := fun (i : Nat) (x : Stage) =>
      if x.prop.isNone || x.pinned || plc.pinnedAll then x
      else let (g, d) := Machine.evaluate (Config.gain p (65536 + i) n) x.gains x.decided; { x with gains := g, decided := d }
    s.updPlc p fun x => { x with evals := n + 1, tensors := Tab.adjust {} tn x.tensors, stages := Tab.adjust {} sg x.stages }

def State.evaluateAll (s : State) : State := s.sv.parts.foldl (fun s p => s.evaluate p) s

/-- A cadence period has passed for objects that a change leaves unchanged for a time (R273). -/
def State.agePeriods (s : State) : State :=
  let tn := fun (_ : Nat) (x : Tensor) => { x with quiet := x.quiet - 1 }
  let sg := fun (_ : Nat) (x : Stage) => { x with quiet := x.quiet - 1 }
  s.sv.parts.foldl (init := s) fun s p =>
    s.updPlc p fun x => { x with tensors := Tab.adjust {} tn x.tensors, stages := Tab.adjust {} sg x.stages }

/-- EVALUATION_TIMER (R274): with no cadence applied. -/
def execEvaluationTimer (s : State) : Host.Outcome State Fault Refusal :=
  .next (if s.tim.cad.live.isNone then s.evaluateAll else s)

/-! The slots of a cadence (R332). -/

def slotOffset (v : Nat) : Nat := bits v 63 32
def slotEvent (v : Nat) : Nat := bits v 31 28
def slotTarget (v : Nat) : Nat := bits v 23 0

def CadSet.slot (c : CadSet) (k : Nat) : Nat := Tab.get 0 c.slots k
/-- The period in ns. -/
def CadSet.ns (c : CadSet) : Nat := c.period * 1000
def CadSet.vals (c : CadSet) : List Nat := (List.range c.count).map c.slot

/-! What moves share (R275, R276). -/

/-- No started LAUNCH, GRAPH_LAUNCH or COPY of the partition names a slot that satisfies f. -/
def State.quietFor (s : State) (p : Nat) (f : Nat → Bool) : Bool :=
  (s.part p).cmds.all fun e => e.2.parent.isSome || (s.slotsNamed p e.2.bytes).all fun x => !f x

/-- The Record Time at which the open shot window ends (R275, R335); none outside a window. -/
def State.shotEnd (s : State) : Option Nat :=
  let c := s.tim.cad
  match c.window, c.live with
  | some _, some x => ((x.vals.drop c.next).find? fun v => slotEvent v == 4).map fun v => c.start + slotOffset v
  | _, _ => none

/-- Copies n bytes, with the poison of their lines (R275). -/
def State.copyLines (s : State) (a b n : Nat) : State :=
  (List.range (n / 128)).foldl (init := s) fun s i =>
    let bad := s.poisonAt (a + 128 * i)
    let d := s.devRead (a + 128 * i) 128
    (s.devWrite (b + 128 * i) d).setPoison (b + 128 * i) (bad && !s.deadAt (b + 128 * i))

/-- Copies a 64 KiB page between two placements of seam offsets, 256 bytes at a time. What it reads and writes counts as the partition's
activity (R275, R445). -/
def State.copyPage (s : State) (p : Nat) (src dst : Nat → Option Nat) : State :=
  let s := (List.range 256).foldl (init := s) fun s i =>
    match src (256 * i), dst (256 * i) with
    | some a, some b => s.copyLines a b 256
    | _, _ => s
  (s.charge p 0 6 1024).charge p 0 8 4096

/-- Every object that has page a has page b instead, and its leaves and cached translations follow. -/
def State.repoint (s : State) (p : Nat) (a b : Nat × Nat) : State :=
  let swap := List.map fun (x : Nat × Nat) => if x = a then b else x
  let ks := ((s.part p).table.filter fun e => leafIs e.2 a.1 a.2).map (·.1)
  let s := ks.foldl (fun s k => s.dropTlb p (k / 2 ^ 39) (k % 2 ^ 39 * 65536) 65536) s
  let leaf := fun (_ : Nat) (w : Nat) =>
    if leafIs w a.1 a.2 then leafWord b.1 b.2 (bit w 4) (bit w 5) (bit w 6) (bit w 7) else w
  let replica := fun (r : Replica) => if r.scratch then r else { r with pages := swap r.pages }
  let tensor := fun (_ : Nat) (x : Tensor) => { x with
    pages := swap x.pages, replicas := x.replicas.map replica, move := x.move.map fun m => { m with built := swap m.built } }
  let conv := fun (_ : Nat) (x : Conveyor) =>
    if x.pages.contains a then { x with pages := swap x.pages, base := s.bufBase p (swap x.pages) } else x
  s.updPart p fun x => { x with
    table := Tab.adjust 0 leaf x.table
    plc := { x.plc with tensors := Tab.adjust {} tensor x.plc.tensors, conveyors := Tab.adjust {} conv x.plc.conveyors } }

/-- Copies a page of a partition to the lowest free page of seam i (R275): the new page and the state; none without room. -/
def State.copyTo (s : State) (p : Nat) (a : Nat × Nat) (i : Nat) : Option ((Nat × Nat) × State) :=
  match State.takeSeam p i ((s.seam p i).used.length + 1) 1 0 s with
  | some (t :: _, s) =>
    some ((i, t), s.copyPage p (fun o => s.seamPhys (s.seam p a.1) (a.2 * 65536 + o)) (fun o => s.seamPhys (s.seam p i) (t * 65536 + o)))
  | _ => none

/-- Moves pages, each to its seam; the pages given up, in order, and the state; none without room for all of them. -/
def State.movePages (p : Nat) : List ((Nat × Nat) × Nat) → State → Option (List (Nat × Nat) × State)
  | [], s => some ([], s)
  | (a, i) :: t, s =>
    if a.1 = i || !s.owned p a.1 a.2 then State.movePages p t s
    else
      match s.copyTo p a i with
      | none => none
      | some (b, s) => (State.movePages p t (s.repoint p a b)).map fun (l, s) => (a :: l, s)

/-- The engine's own epoch step for the pages that a group has given up (R253, R275): its epoch, and the state. -/
def State.groupDone (s : State) (p : Nat) (old : List (Nat × Nat)) : Nat × State :=
  let (e, s) := s.bump p
  (e, (s.updPlc p fun x => { x with
    moves := satAdd 0xFFFFFFFF x.moves 1
    zeroing := x.zeroing ++ old.map fun y => (some e, .page y.1 y.2) }).reclaim p)

/-! Unforced moves (R273, R275). -/

/-- A release that waited for the tensor's moves takes place (R283). -/
def State.freeWaiting (s : State) (p t : Nat) : State :=
  let x := s.tensor p t
  if x.releasing && !x.moving then s.dropTensor p t else s

/-- A placement change of a tensor (R273, R279). -/
def Tensor.changed (x : Tensor) (now : Nat) : Tensor := { x with changes := x.changes + 1, changedAt := now, quiet := 4 }

/-- A move ends once the steps of its last group are done (R275). -/
def State.moveEnd (s : State) (p t : Nat) : State :=
  let x := s.tensor p t
  match x.move with
  | none => s
  | some m =>
    if x.pages.length > m.done || (match m.last with | some e => !s.passed p e | none => false) then s
    else
      let add := match m.kind with
        | .reseam => []
        | .replica => [{ scratch := false, pages := m.built : Replica }]
        | .scratch a => [{ scratch := true, pages := [(a, x.size)] }]
      let s := s.updTensor p t fun y => { (y.changed s.tim.now) with
        move := none, replicas := y.replicas ++ add, was := if y.via.isEmpty then [] else y.was }
      s.freeWaiting p t

/-- The pages of the next group of a tensor's move: as many as its source seam has members (R200). -/
def State.nextGroup (s : State) (p : Nat) (x : Tensor) (m : Move) : List (Nat × Nat) :=
  let n := match x.pages[m.done]? with | some (i, _) => max 1 (s.seam p i).d.chans.length | none => 0
  (x.pages.drop m.done).take n

/-- A group that starts at Record Time t has its bytes copied, at 1 TB/s, before SHOT_END (R275). -/
def State.groupFits (s : State) (t pages : Nat) : Bool :=
  match s.shotEnd with
  | some e => decide (t + ceilDiv (pages * 65536) 1000 ≤ e)
  | none => false

/-- What a group of an unforced move does with its pages: the pages given up, the pages built, and the state. -/
def State.groupStep (s : State) (p : Nat) (m : Move) (l : List (Nat × Nat)) : Option (List (Nat × Nat) × List (Nat × Nat) × State) :=
  let to_ := fun (r : Nat) => s.dealTo p m.dest (m.done + r)
  match m.kind with
  | .reseam =>
    (State.movePages p (l.zipIdx.filterMap fun e => (to_ e.2).map fun i => (e.1, i)) s).map fun (o, s) => (o, [], s)
  | .replica => l.zipIdx.foldl (init := some ([], [], s)) fun r e => do
      let (o, b, s) ← r
      let i ← to_ e.2
      let (x, s) ← s.copyTo p e.1 i
      some (o, b ++ [x], s)
  | .scratch _ => some ([], [], l.foldl (fun s _ => (s.charge p 0 6 1024).charge p 0 8 2048) s)

/-- A group of a tensor's move (R275). A group that finds no room, or that does not fit before SHOT_END, stays where it is. -/
def State.moveGroup (s : State) (p t : Nat) : State :=
  let x := s.tensor p t
  match x.move with
  | none => s
  | some m =>
    let l := s.nextGroup p x m
    if !m.active then s
    else if l.isEmpty then s.moveEnd p t
    else if !s.canBump p || !s.groupFits m.at_ l.length then s
    else
      match s.groupStep p m l with
      | none => s
      | some (old, built, s) =>
        let (e, s) := s.groupDone p old
        let s := s.updTensor p t fun y => { y with
          move := some { m with done := m.done + l.length, at_ := s.tim.now, built := m.built ++ built, last := some e } }
        s.moveEnd p t

/-! Forced moves (R276 to R278, R280). -/

/-- The partitions under whose epochs a seam's groups move: its own, or those that map its region. -/
def State.seamParts (s : State) (p i : Nat) : List Nat :=
  match (s.seam p i).region with
  | some r => s.regionParts r
  | none => [p]

/-- No command in flight names a slot with pages in a seam. -/
def State.seamQuiet (s : State) (p i : Nat) : Bool :=
  match (s.seam p i).region with
  | some r => (s.regionParts r).all fun q =>
      s.quietFor q fun slot => (s.part q).plc.regionMaps.any fun m => m.1 == slot && m.2.2 == r
  | none => s.quietFor p (s.seamSlot p i)

/-- FORCED_MOVE_START (R276): the forced move of seam i of partition p, which holds commands, begins once those in flight have retired.
The seam's pending commit ends with ABORTED (R283), and its objects are MOVING from here on. -/
def execForcedMoveStart (p i : Nat) (s : State) : Host.Outcome State Fault Refusal :=
  .next (if (s.seam p i).active || !s.moveHolds p i || !s.seamQuiet p i then s
    else
      let tn := fun (_ : Nat) (x : Tensor) =>
        if x.pages.any (·.1 == i) then { x with via := x.via ++ [i], was := if x.moving then x.was else x.pages } else x
      let cv := fun (_ : Nat) (x : Conveyor) =>
        if x.pages.any (·.1 == i) then { x with via := x.via ++ [i], base0 := if x.via.isEmpty then x.base else x.base0 } else x
      let s := s.updPlc p fun x => { x with tensors := Tab.adjust {} tn x.tensors, conveyors := Tab.adjust {} cv x.conveyors }
      s.updSeam p i fun x => { x with active := true, hold := true, last := [], used0 := x.used.length, grp := x.grp.abort })

/-- A seam's forced move ends, and its hold with it, once nothing of it is due and the steps of its groups are done (R276, R279). -/
def State.seamEnd (s : State) (p i : Nat) : State :=
  let x := s.seam p i
  if s.moveDue p i || !x.last.all fun w => s.passed w.1 w.2 then s
  else
    let now := s.tim.now
    let ts := ((s.part p).plc.tensors.filter fun e => e.2.via.contains i).map (·.1)
    let tn := fun (_ : Nat) (y : Tensor) =>
      if y.via.contains i then
        let v := y.via.filter (· != i)
        { (y.changed now) with replaced := true, via := v, was := if v.isEmpty && y.move.isNone then [] else y.was }
      else y
    let cv := fun (_ : Nat) (y : Conveyor) =>
      if y.via.contains i then
        { y with replaced := true, via := y.via.filter (· != i), changes := y.changes + 1, changedAt := now }
      else y
    let s := s.updPlc p fun y => { y with tensors := Tab.adjust {} tn y.tensors, conveyors := Tab.adjust {} cv y.conveyors }
    let s := s.updSeam p i fun y =>
      if y.used.isEmpty && y.region.isNone then { grp := y.grp }
      else { y with
        active := false, hold := false, deal := [], last := [], replaced := true, changes := y.changes + 1, changedAt := now }
    ts.foldl (fun s t => s.freeWaiting p t) s

/-- The definition under which a page of a seam lies while the seam moves (R280). -/
def Seam.defOf (x : Seam) (t : Nat) : SeamDef :=
  match x.goal with
  | some (d, m) => if t < m then d else x.d
  | none => x.d

/-- A group of a re-placement (R278): the pages of the seam's lowest group still to be dealt out. -/
def State.dealGroup (s : State) (p i : Nat) : State :=
  let x := s.seam p i
  let t0 := x.plan.foldl (fun m e => min m e.1) (x.plan.headD (0, 0)).1
  let n := (x.defOf t0).chans.length
  let now := x.plan.filter fun e => e.1 / n == t0 / n
  match State.movePages p (now.map fun e => ((i, e.1), e.2)) s with
  | none => s
  | some (old, s) =>
    let (e, s) := s.groupDone p old
    s.updSeam p i fun y => { y with plan := y.plan.filter fun e => !now.contains e, last := [(p, e)] }

/-- A group under a pinned seam's new definition (R280): its pages are copied to new frames, and the old groups that it completes give
up theirs. Once no page remains, the new definition stands. -/
def State.goalGroup (s : State) (p i : Nat) (d : SeamDef) (m : Nat) : State :=
  let x := s.seam p i
  let n := d.chans.length
  let old := x.d.chans.length
  let finish := !x.used.any fun e => decide (m ≤ e.1) && s.owned p i e.1
  let m' := m + n
  let gone := fun (k : Nat) => finish || decide (m < (k / old + 1) * old ∧ (k / old + 1) * old ≤ m')
  let is := (List.range n).filter fun j => s.owned p i (m + j)
  match if finish || is.isEmpty then some ([], s) else s.takeEach d.chans with
  | none => s
  | some (l, s) =>
    let frames := l.zipIdx.foldl (fun t e => Tab.set 0 t (m / n * n + e.2) (e.1 + 1)) d.frames
    let d := { d with frames := frames }
    let s := is.foldl (fun s j =>
      s.copyPage p (fun o => x.d.place ((m + j) * 65536 + o)) (fun o => d.place ((m + j) * 65536 + o))) s
    let (es, s) := s.leave [p] (x.d.framePages gone)
    let s := s.updPlc p fun y => { y with moves := satAdd 0xFFFFFFFF y.moves (if is.isEmpty then 0 else 1) }
    s.updSeam p i fun y =>
      if finish then { y with d := d, goal := none, last := es }
      else { y with d := y.d.without gone, goal := some (d, m'), last := es }

/-- The replacement of one retired page (R218, R277): frame f takes page q of the same channel, with the page's lines and their poison. -/
def State.fixGroup (s : State) (p i f q : Nat) : State :=
  let x := s.seam p i
  let s := s.updPlc p fun y => { y with moves := satAdd 0xFFFFFFFF y.moves 1 }
  let copy := fun (s : State) (c pg : Nat) => (s.takePage c q).copyPage p (fun o => some (paOf c pg o)) (fun o => some (paOf c q o))
  match x.region with
  | none =>
    match x.d.chans[f % x.d.chans.length]?, Tab.get 0 x.d.frames f with
    | some c, pg + 1 =>
      let (es, s) := (copy s c pg).leave [p] [(c, pg)]
      s.updSeam p i fun y => { y with d := { y.d with frames := Tab.set 0 y.d.frames f (q + 1) }, last := es }
    | _, _ => s
  | some r =>
    let guarded := match s.sv.region r with | some d => d.guarded | none => false
    match (s.region r).frames[f]? with
    | none => s
    | some (c, pg) =>
      let cs := if guarded then [c, c ^^^ 256] else [c]
      let s := cs.foldl (fun s c => copy s c pg) s
      let s := s.updRegion r fun y => { y with frames := y.frames.set f (c, q) }
      let (es, s) := s.leave (s.regionParts r) (cs.map fun c => (c, pg))
      s.updSeam p i fun y => { y with last := es }

/-- A group of a seam's forced move (R276): what a channel's death has dealt out first, then a new definition, then retired pages. -/
def State.seamGroup (s : State) (p i : Nat) : State :=
  let x := s.seam p i
  if !x.active then s
  else if !s.moveDue p i then s.seamEnd p i
  else if !(s.seamParts p i).all s.canBump then s
  else
    (match x.plan, x.goal, s.fixable p i with
      | _ :: _, _, _ => s.dealGroup p i
      | [], some (d, m), _ => s.goalGroup p i d m
      | [], none, some (f, q) => s.fixGroup p i f q
      | [], none, none => s).seamEnd p i

/-- MOVE_GROUP_END (R275, R277, R278, R280): t below 65,536 is tensor t's move, above it the forced move of seam t − 65,536. -/
def execMoveGroupEnd (p t : Nat) (s : State) : Host.Outcome State Fault Refusal :=
  .next (if t < 65536 then s.moveGroup p t else s.seamGroup p (t - 65536))

/-! Shot windows (R273, R275, R276). -/

/-- A change of a tensor that has been decided begins (R273, R275): a replica leaves, or a move starts. -/
def State.begin_ (s : State) (p t : Nat) (x : Tensor) (c : Change) : State :=
  let clear := fun (y : Tensor) => { y with prop := none, decided := false, gains := 0 }
  let start := fun (s : State) (m : Move) => s.updTensor p t fun y => { (clear y) with
    move := some { m with active := true, at_ := s.tim.now }, was := if y.moving then y.was else y.pages }
  let free := bit (s.sv.pflags p) 1 && s.quietFor p x.inSlot
  let enter := fun (kind : MoveKind) (chans : List Nat) (stride : Nat) =>
    match s.seamFor p x.pool chans stride with
    | none => s
    | some i =>
      let s := if (s.seam p i).d.chans.isEmpty then
        s.updSeam p i fun y => { y with d := { chans := chans, stride := stride }, pool := x.pool } else s
      start s { kind := kind, dest := [i] }
  match c with
  | .drop i =>
    if (s.proposalOk (.dropReplica p t i)).2.2 then (s.dropReplica p (t, i)).updTensor p t fun y => (clear y).changed s.tim.now else s
  | .seam chans stride =>
    if free && (s.proposalOk (.reseam p t chans stride)).2.2 then enter .reseam chans stride else s
  | .add chans stride scratch =>
    if !free || !(s.proposalOk (.addReplica p t chans stride scratch)).2.2 then s
    else if scratch then match s.grantFit p x.size with | some a => start s { kind := .scratch a } | none => s
    else
      match s.sv.pool p x.pool with
      | some pl => if s.poolUsed p x.pool + x.pages.length > pl.gib * 16384 then s else enter .replica chans stride
      | none => s

/-- What the engine carries out at a SHOT_BEGIN (R273, R275): decided changes whose objects meet the conditions, and that no change of the
last 4 periods leaves unchanged. -/
def State.carryOut (s : State) (p : Nat) : State :=
  if (s.part p).draining then s
  else
    let plc := (s.part p).plc
    let s := plc.stages.foldl (init := s) fun s e =>
      match e.2.prop with
      | some m =>
        if e.2.decided && e.2.quiet = 0 && !e.2.pinned && !plc.pinnedAll && (s.proposalOk (.district p e.1 (setBits 576 m))).2.2
        then s.updStage p e.1 fun x => { x with
          district := m, size := popc 576 m, changes := x.changes + 1, changedAt := s.tim.now, gains := 0, prop := none,
          decided := false, quiet := 4 }
        else s
      | none => s
    plc.tensors.foldl (init := s) fun s e =>
      let x := e.2
      match x.prop with
      | some c =>
        if !x.decided || x.quiet != 0 || x.pinned || plc.pinnedAll || x.move.isSome || !x.via.isEmpty then s else s.begin_ p e.1 x c
      | none => s

/-- Forced moves that are due have started (R276): they keep their hold past SHOT_END, or under a cadence that has just become live. -/
def State.latchMoves (s : State) : State :=
  s.parts.foldl (init := s) fun s e => e.2.plc.seams.foldl (init := s) fun s x =>
    if s.moveDue e.1 x.1 then s.updSeam e.1 x.1 fun y => { y with hold := true } else s

/-- Unforced moves stop at SHOT_END, and resume in a later window under the same conditions (R275). -/
def State.pauseMoves (s : State) (p : Nat) : State :=
  let pause := fun (_ : Nat) (y : Tensor) => { y with
    move := y.move.map fun m => { m with active := false }, was := if y.via.isEmpty then [] else y.was }
  s.updPlc p fun x => { x with tensors := Tab.adjust {} pause x.tensors }

/-- Unforced moves begun in an earlier window go on when their conditions are met. -/
def State.resumeMoves (s : State) (p : Nat) : State :=
  if (s.part p).draining then s
  else (s.part p).plc.tensors.foldl (init := s) fun s e =>
    match e.2.move with
    | some m =>
      if !m.active && s.quietFor p e.2.inSlot then s.updTensor p e.1 fun y => { y with
        move := some { m with active := true, at_ := s.tim.now }, was := if y.moving then y.was else y.pages } else s
    | none => s

/-! The scratch grant (R282). -/

/-- What a smaller grant leaves out is evicted: replicas go, and conveyor buffers move to their pool as soon as it has room. -/
def State.evict (s : State) (p : Nat) : State :=
  let base := s.scratchSize p - s.grantAsked p
  let out := (s.replicas p).filter fun x =>
    match (s.tensor p x.1).replicas[x.2]? with
    | some r => r.scratch && r.pages.any fun e => decide (e.1 < base)
    | none => false
  let s := out.foldl (fun s x => (s.dropReplica p x).updTensor p x.1 fun y => y.changed s.tim.now) s
  let stop := fun (_ : Nat) (y : Tensor) =>
    match y.move with
    | some { kind := .scratch a, .. } => if a < base then { y with move := none } else y
    | _ => y
  let s := s.updPlc p fun x => { x with tensors := Tab.adjust {} stop x.tensors }
  (s.part p).plc.conveyors.foldl (init := s) fun s e =>
    if e.2.inScratch && decide (e.2.base < base) then
      match (s.sv.pool p e.2.pool).bind fun pl => s.placePages p pl 0 (ceilDiv (e.2.depth * cvBytes e.2.width) 65536) with
      | some (pages, s) => (s.updConv p e.1 fun x => { x with
          inScratch := false, base := s.bufBase p pages, pages := pages, changes := x.changes + 1, changedAt := s.tim.now }).retireGone p
          [.scratch e.2.base (e.2.depth * cvBytes e.2.width)]
      | none => s
    else s

/-- PLC_SCRATCH_GRANT is written (R282). -/
def State.regrant (s : State) (p g : Nat) : State :=
  let now := s.grantOpen p / 2 ^ 20
  let ks := ((s.part p).cmds.filter fun c => c.2.op == 1).map (·.1)
  (s.updPlc p fun x => { x with grant := g, grantWas := now, grantAfter := ks }).evict p

/-- What a retirement may set free in the placement engine (R253, R267, R282). -/
def State.placeAfter (s : State) (p : Nat) : State := ((s.stageGone p).reclaim p).evict p

end Sys2Proof.Machine
end

