-- ==== Sys2Proof/Machine/Answers.lean ====
section
/-!
DEFINITION. Answers from outside the device and their failures (R193, R194, R196, R257): loads, stores and copies that wait
for a host or for another device; the routes of the fabric and adit requests (R358 to R361, R368, R369).
-/

namespace Sys2Proof.Machine

/-! Loads and stores of gangs. -/

/-- The data of one lane of an outstanding load arrives; poisoned data carries the load's address (R112). -/
def State.laneAnswer (s : State) (g id lane v : Nat) (poison : Bool) : State :=
  s.updGang g fun x => { x with pend := x.pend.map fun p =>
    if p.id = id then { p with lanes := p.lanes.map fun l =>
      if l.lane = lane && !l.ready then { l with ready := true, data := v, poison := if poison then some l.addr else none } else l }
    else p }

/-- A store leaves its buffer as lost (R193): one STORE_LOST record, and STORE_ERR at the thread's next fence. -/
def State.storeLost (s : State) (b : Nat) (e : StEntry) : State :=
  let s := (s.setSub b ((s.sub b).erase e)).updGang e.gang fun x => { x with lost := x.lost ||| 2 ^ e.lane }
  let p := (s.gang e.gang).k.part
  let s := s.report p 0x0002 1 e.gang e.addr []
  (s.settle e.gang).reclaim p

/-- A store leaves its buffer at its point of coherence (R180). -/
def State.storeDone (s : State) (b : Nat) (e : StEntry) : State :=
  let s := s.setSub b ((s.sub b).erase e)
  (s.settle e.gang).reclaim (s.gang e.gang).k.part

/-! Copies. -/

/-- Bytes at the place where a copy writes them: poisoned data is withheld outside the device (R299). -/
def State.putLoc (s : State) (r : Req) (l : Loc) (d : List Byte) (poison : Bool) : State :=
  match l with
  | .ws c a => (s.wsWrite c a d poison).charge r.part r.tally 5 (ceilDiv d.length 16)
  | .l2s p a => (s.l2sWrite p a d poison).charge r.part r.tally 6 1
  | .dev a => s.homeWrite r a d poison
  | .host i a rlx => if poison then s else (s.send i (.write (s.hostFn r.part i) a d rlx)).charge r.part r.tally 10 (ceilDiv d.length 64)
  | _ => s

/-- A place outside the device, where poisoned data is withheld. -/
def Loc.outside : Loc → Bool
  | .host _ _ _ | .adit _ _ _ _ _ | .ctrl _ _ => true
  | _ => false

/-- A descriptor of a copy fails (R299): the lowest failing descriptor gives the command's code, address and info. -/
def State.copyFail (s : State) (p k idx code addr : Nat) : State :=
  s.updCmd p k fun c => if c.code = 0 || idx < c.info then { c with code := code, addr := addr, info := idx } else c

/-- Elements of a copy's write are lost (R196): the first address and the number of 8-byte elements. -/
def State.copyLost (s : State) (p k idx addr n : Nat) : State :=
  (s.updCmd p k fun c => { c with lostAt := c.lostAt.or (some addr), lostN := c.lostN + n }).copyFail p k idx 0x05 addr

/-- Elements of n bytes from address a. -/
def elements (a n : Nat) : Nat := if n = 0 then 0 else (a + n - 1) / 8 + 1 - a / 8

/-- Awaited bytes of a copy arrive, or fail as poisoned (R194, R299): they go to their place at once, but for an adit or a
register, which take them when the command goes on. -/
def State.copyAnswer (s : State) (p k idx : Nat) (dst : List Loc) (addr : Nat) (d : List Byte) (poison : Bool) (stamp : Nat) : State :=
  let s := s.updCmd p k fun c => { c with awaited := c.awaited - 1 }
  let s := dst.foldl (init := s) fun s l =>
    if poison && l.outside then s.copyFail p k idx 0x04 addr
    else
      match l with
      | .adit _ _ _ _ _ | .ctrl _ _ => s.updCmd p k fun c => { c with landed := c.landed ++ [(idx, l, addr, d, stamp)] }
      | .host i _ _ =>
        if (s.port i).dom == .ready then s.putLoc (s.req p (s.cmdTally p k) 1) l d poison
        else s.copyLost p k idx addr (elements addr d.length)
      | _ => s.putLoc (s.req p (s.cmdTally p k) 1) l d poison
  (s.semCheck).reclaim p

/-- Awaited first bytes of an element arrive, or fail as poisoned (R191, R194). -/
def State.headAnswer (s : State) (p k idx : Nat) (d : List Byte) (poison : Bool) : State :=
  s.updCmd p k fun c => { c with copies := c.copies.map fun y =>
    if y.idx = idx then { y with head := y.head ++ d, bad := y.bad || poison, asked := false } else y }

/-! Routes (R358 to R361). -/

/-- The device's ID, when it holds one (R354, R373). -/
def State.devId (s : State) : Option Nat := if s.fab.source = 1 || s.fab.source = 2 then some s.fab.id else none

def State.portUp (s : State) (i : Nat) : Bool := (s.fabPort i).state == .up

/-- FAB_ROUTE[d]: the Survey's entry, or the computed one (R358). -/
def State.routeEntry (s : State) (d : Nat) : Nat := if s.sv.fabStatic then s.sv.route d else Tab.get 0 s.fab.routes d

/-- The live ports of an entry, limited to a mask of ports (R360). -/
def State.livePorts (s : State) (d grant : Nat) : List Nat :=
  let w := s.routeEntry d
  ((List.range 4).filter fun i => bit w (24 + i)).map (fun i => bits w (5 * i + 4) (5 * i)) |>.filter fun i => s.portUp i && bit grant i

/-- The port of a flow (R360). -/
def pickPort (src dest flow : Nat) (live : List Nat) : Option Nat :=
  let h := (src * 0x9E37 + dest * 0x7F4B + flow * 0x3C6F) % 65536
  live[h * live.length / 65536]?

/-! Classes, credits and output queues (R347 to R349). -/

/-- Types of class REQ (R347, R350). -/
def isReq (t : Nat) : Bool := t == 0x10 || t == 0x11 || t == 0x12 || t == 0x20

/-- The class of a type (R347): 0 CTL, 1 REQ, 2 RSP, 3 RED. -/
def flitClass (t : Nat) : Nat := if t < 0x10 then 0 else if isReq t then 1 else if t < 0x30 then 2 else 3

/-- Credits granted at UP (R347). -/
def creditGrant (c : Nat) : Nat := match c with | 0 => 16 | 1 => 240 | _ => 128

/-- A credit of the class is held. -/
def FabPort.may (x : FabPort) (c : Nat) : Bool := decide (Tab.get 0 x.spent c < creditGrant c)

/-- The place in the queue of the first flit of a class that came by an input. -/
def FabPort.firstOf (x : FabPort) (c i : Nat) : Option Nat := x.queue.findIdx? fun w => flitClass w.flit.type == c && w.input == i

/-- The place in the queue of the flit that a class sends next: its inputs take turns (R348). -/
def FabPort.nextOf (x : FabPort) (c : Nat) : Option Nat :=
  if x.may c then (List.range 33).findSome? fun k => x.firstOf c ((Tab.get 32 x.lastIn c + 1 + k) % 33) else none

/-- The flit that the output sends next (R348): CTL first, then REQ, RSP and RED in turn. -/
def FabPort.next (x : FabPort) : Option Nat :=
  (x.nextOf 0).or ((List.range 3).findSome? fun k => x.nextOf ((x.lastClass + k) % 3 + 1))

/-- Sends flits while one may go: each takes a credit and a frame, which the replay buffer keeps until it is acknowledged. -/
def FabPort.serve : Nat → FabPort → FabPort
  | 0, x => x
  | n + 1, x =>
    match x.next with
    | none => x
    | some i =>
      match x.queue[i]? with
      | none => x
      | some w =>
        let c := flitClass w.flit.type
        FabPort.serve n { x with
          queue := x.queue.eraseIdx i, out := x.out ++ [w.flit], spent := Tab.upd 0 x.spent c (· + 1)
          lastClass := if c = 0 then x.lastClass else c, lastIn := Tab.set 32 x.lastIn c w.input
          sq := (x.sq + 1) % 4096, unacked := x.unacked ++ [(x.sq, w.flit)] }

/-- A flit that came by an input, 32 for the device's own, joins an UP port's queues and leaves when the output serves it; a port that
is not UP carries the HELLOs of DISCOVER alone, which take no credit. -/
def State.putFlit (s : State) (i input grant : Nat) (f : Flit) : State :=
  s.updFabPort i fun x =>
    if x.state = .up then
      FabPort.serve (x.queue.length + 1) { x with queue := x.queue ++ [{ input := input, grant := grant, flit := f }] }
    else { x with out := x.out ++ [f] }

/-- Flits of a class that a port's receive buffer holds (R347): those that came by it and wait at an output. -/
def State.rxHeld (s : State) (i c : Nat) : Nat :=
  (s.fab.ports.map fun e => (e.2.queue.filter fun w => w.input == i && flitClass w.flit.type == c).length).sum

/-- Credits come back and frames are acknowledged, as many as free values say (log entry 76), and the output goes on. -/
def State.portCycle (s : State) (i : Nat) : State :=
  let x := s.fabPort i
  if x.state != .up || (x.spent.isEmpty && x.unacked.isEmpty) then s
  else
    let (l, s) := State.draws 5 s
    s.updFabPort i fun x =>
      let back := fun (t : Tab Nat) (c : Nat) => Tab.upd 0 t c fun n => n - l.getD c 0 % (n + 1)
      FabPort.serve x.queue.length { x with
        spent := [0, 1, 2, 3].foldl back x.spent, unacked := x.unacked.drop (l.getD 4 0 % (x.unacked.length + 1)) }

/-- The device originates a routed flit (R346, R360 to R362): the sender sets HOPS to 31. A flit without a route is dropped and
counted. -/
def State.originate (s : State) (type dest flow grant : Nat) (body : List Byte) : State :=
  match s.devId with
  | none => s
  | some me =>
    let f : Flit := { type := type, hops := 31, dest := dest, src := me, flow := flow, body := padTo 256 body }
    match pickPort me dest flow (s.livePorts dest grant) with
    | some i => s.putFlit i 32 grant f
    | none => s.updFab fun x => { x with noRoute := satAdd 0xFFFF x.noRoute 1 }

/-- A device is reachable (R366). -/
def State.reachable (s : State) (d : Nat) : Bool := s.devId.isSome && Tab.get false s.fab.reach d

/-! Adit requests (R255, R368, R369). -/

/-- The flow of a partition's outbound window. -/
def aditFlow (p w : Nat) : Nat := p * 256 + w

/-- The 128-byte block of a far window. -/
def aditBlock (dev far off : Nat) : Nat := (dev * 256 + far) * 2 ^ 57 + off / 128

/-- A write or atomic of the flow to the block is unanswered (R369). -/
def State.blockBusy (s : State) (flow blk : Nat) : Bool := s.fab.busy.any fun e => e.1 == flow && e.2.1 == blk

/-- A tag that is free; none while 65,536 are outstanding (R368). -/
def State.freeTag (s : State) : Option Nat :=
  if s.fab.tags.length ≥ 65536 then none
  else (List.range (s.fab.tags.length + 1)).findSome? fun i =>
    let t := (s.fab.nextTag + i) % 65536
    if (Tab.get none s.fab.tags t).isNone then some t else none

/-- An adit request's payload (R368). -/
def aditBody (off win tag len aop pmask : Nat) (d : List Byte) : List Byte :=
  leBytes 8 off ++ leBytes 1 win ++ leBytes 1 0 ++ leBytes 2 tag ++ leBytes 1 len ++ leBytes 1 aop ++ leBytes 2 pmask ++ padTo 128 d

/-- Sends an adit request of type 0x10, 0x11 or 0x12 for a waiter: its tag; none when it must wait for a tag or, for a write
or atomic, for its block. -/
def State.aditSend (s : State) (p t : Nat) (type win dev far off len aop pmask : Nat) (d : List Byte) (w : Waiter) :
    Option (Nat × State) :=
  let flow := aditFlow p win
  let blk := aditBlock dev far off
  match s.freeTag with
  | none => none
  | some tag =>
    if type != 0x10 && s.blockBusy flow blk then none
    else
      let s := s.updFab fun x => { x with
        nextTag := (tag + 1) % 65536, tags := Tab.set none x.tags tag (some w), tagDev := Tab.set 0 x.tagDev tag (dev + 1)
        tagFlow := Tab.set 0 x.tagFlow tag (flow + 1), tagAt := Tab.set 0 x.tagAt tag (s.clk + 1)
        busy := if type = 0x10 then x.busy else x.busy ++ [(flow, blk, tag)] }
      some (tag, (s.originate type dev flow (s.sv.portGrant p) (aditBody off far tag len aop pmask d)).charge p t 9 1)

/-- Frees a tag. -/
def State.dropTag (s : State) (tag : Nat) : State :=
  s.updFab fun x => x.forget fun t _ => t == tag

/-- The answer to an outstanding adit request (R257, R368): `ok` false for a refusal or a failure. -/
def State.tagAnswer (s : State) (tag : Nat) (ok : Bool) (d : List Byte) (pmask : Nat) : State :=
  match Tab.get none s.fab.tags tag with
  | none => s
  | some w =>
    let s := s.dropTag tag
    match w with
    | .load g id lane => s.laneAnswer g id lane (leVal d) (!ok || pmask != 0)
    | .store b =>
      match (s.sub b).find? fun e => e.tag == some tag with
      | some e => if ok then s.storeDone b e else s.storeLost b e
      | none => s
    | .copy p k idx [] addr n _ =>
      let s := if ok then s else s.copyLost p k idx addr n
      s.updCmd p k fun c => { c with awaited := c.awaited - 1 }
    | .copy p k idx dst addr n t => s.copyAnswer p k idx dst addr (padTo n d) (!ok || pmask != 0) t
    | .head p k idx n _ => s.headAnswer p k idx (padTo n d) (!ok || pmask != 0)
    | _ => s

/-! Hosts. -/

/-- The answer to a read of a host by a load or a copy (R194). -/
def State.hostData (s : State) (w : Waiter) (ok : Bool) (d : List Byte) : State :=
  match w with
  | .load g id lane => s.laneAnswer g id lane (leVal d) (!ok)
  | .copy p k idx dst addr n t => s.copyAnswer p k idx dst addr (padTo n d) (!ok) t
  | .head p k idx n _ => s.headAnswer p k idx (padTo n d) (!ok)
  | _ => s

end Sys2Proof.Machine
end

