-- ==== Sys2Proof/Machine/Access.lean ====
section
/-!
DEFINITION. Who makes a register access and what it may see or write (R18 to R22, R399, R400, R402, R410, R412).
-/

namespace Sys2Proof.Machine

/-- A register access: the function that makes it (32 JTAG, 33 the Pithead) and the partition that its per-partition views
show (R21). -/
structure Who where
  q : Nat
  view : Option Nat
  deriving DecidableEq, Repr

/-- PARTITION and NONE of a function's DEV_PART_SEL (R21): until first written it follows the lowest bound partition. The
Pithead may select any partition. -/
def State.partSel (s : State) (q : Nat) : Nat × Bool :=
  let ps := if q ≥ 32 then s.sv.parts else s.bound q
  match (s.fn q).partSel with
  | some p => (p, !ps.contains p)
  | none => match ps with | p :: _ => (p, false) | [] => (0, true)

/-- The access of function q through its own view. -/
def State.who (s : State) (q : Nat) : Who :=
  let (p, none_) := s.partSel q
  { q := q, view := if none_ then none else some p }

/-- An access by a kernel or command of partition p through a control leaf always has p's view (R21, R184). -/
def State.whoOf (s : State) (p : Nat) : Who := { q := s.sv.fn p, view := some p }

/-- A host access of function q reaches the registers: its function is present, memory space is enabled and not in D3hot, and
its port is READY and carries memory requests (R396, R400, R410, R412); after a trip nothing is answered (R511). -/
def State.hears (s : State) (q : Nat) : Bool :=
  if q ≥ 32 then true
  else s.fnOn q && (s.fn q).cfg.memEn && !(s.fn q).cfg.d3 && (s.port (q / 16)).dataOk && s.rel 2 && !s.rst.tripped

/-- Functions that write global blocks (R20): those of the primary port, and the Pithead. -/
def State.mayGlobal (s : State) (q : Nat) : Bool := q == 33 || (decide (q < 32) && q / 16 == s.primary)

/-- A discarded write of a global block (R20, R26). -/
def State.foreign (s : State) : State := { s with foreignWr := satAdd 0xFFFFFFFF s.foreignWr 1 }

/-- The domain of a block of BAR0 (R18): the block's number is its offset / 1 MiB. -/
def blockDomain (b : Nat) : Nat :=
  match b with
  | 1 => 1 | 2 => 3 | 3 => 3 | 4 => 4 | 5 => 3 | 6 => 1 | 7 => 6 | 8 => 6 | 9 => 2 | 10 => 1 | 13 => 1 | 14 => 1 | _ => 0

/-- A global operation that only functions of the primary port may ask for (R20): another's is counted and does nothing. -/
def State.globalOp (s : State) (q b : Nat) (f : State → State) : State :=
  if !s.hears q || !s.rel (blockDomain b) then s
  else if s.mayGlobal q then f s else s.foreign

/-- An operation on the partition that a function's view shows; with none shown it does nothing (R20, R21). -/
def State.partOp (s : State) (w : Who) (b : Nat) (f : Nat → State → State) : State :=
  if !s.hears w.q || !s.rel (blockDomain b) then s
  else match w.view with | some p => f p s | none => s

end Sys2Proof.Machine
end

