-- ==== Sys2Proof/Machine/Energy.lean ====
section
/-!
DEFINITION. The Checkweigher (R435 to R455): windows and their reconciliation, intervals and cuts, energy records, the hold
and the energy ring.
-/

namespace Sys2Proof.Machine

/-! The rule of division (R442). -/

/-- Inserts (remainder, index) before smaller remainders; equal ones keep the order of their units. -/
def insertRem (x : Nat × Nat) : List (Nat × Nat) → List (Nat × Nat)
  | [] => [x]
  | y :: t => if y.1 ≥ x.1 then y :: insertRem x t else x :: y :: t

/-- split(E, a) of R442: shares in proportion to the weights, whose sum is E whenever some weight is not 0. -/
def split (e : Nat) (a : List Nat) : List Nat :=
  let total := a.sum
  if total = 0 then a.map fun _ => 0
  else
    let q := a.map fun x => e * x / total
    let r := (a.zipIdx).foldl (fun l x => insertRem (e * x.1 % total, x.2) l) []
    let got := (r.take (e - q.sum)).map (·.2)
    q.zipIdx.map fun x => if got.contains x.2 then x.1 + 1 else x.1

/-- Adds lists of equal length. -/
def addL (a b : List Nat) : List Nat := List.zipWith (· + ·) a b

/-! Units (R439, R441). -/

/-- The pool of a counter: 0 CORE, 1 BASE, 2 MEM, 3 LINK. -/
def ctrPool (k : Nat) : Nat := if k ≤ 4 then 0 else if k ≤ 7 then 1 else if k = 8 then 2 else 3
/-- The record domain of a counter: 0 core, 1 array, 2 memory, 3 fabric, 4 host. -/
def ctrDom (k : Nat) : Nat :=
  match k with | 0 => 0 | 5 => 0 | 6 => 0 | 8 => 2 | 7 => 3 | 9 => 3 | 10 => 4 | _ => 1

/-- The units with activity in the window, in the order of R442, idle (number 0) last. -/
def Ckw.units (c : Ckw) : List Nat :=
  let l := (c.act.map fun e => e.1 / 16).eraseDups
  (l.filter (· != 0)) ++ (if l.contains 0 then [0] else [])

/-- A unit's weighted activity in a pool and domain. -/
def Ckw.weigh (c : Ckw) (u pool dom : Nat) : Nat :=
  ((List.range 11).map fun k =>
    if ctrPool k = pool && ctrDom k = dom then Config.weight k * Tab.get 0 c.act (u * 16 + k) else 0).sum

def Ckw.weighPool (c : Ckw) (u pool : Nat) : Nat := ((List.range 5).map fun d => c.weigh u pool d).sum

/-- Dynamic energy of pool `pool` divided among units and idle, and each share among the unit's domains (R442 steps 1 and 2): the
units' domain shares in order, and what idle received. -/
def Ckw.dynamic (c : Ckw) (pool d : Nat) : List (Nat × List Nat) × Nat :=
  let us := c.units
  let w := us.map fun u => c.weighPool u pool
  if w.sum = 0 then ([], d)
  else
    let sh := us.zip (split d w)
    ((sh.filter fun e => e.1 != 0).map fun e => (e.1, split e.2 ((List.range 5).map fun i => c.weigh e.1 pool i)),
     ((sh.filter fun e => e.1 == 0).map (·.2)).sum)

/-! Static and idle energy (R443, R444). -/

/-- The weight of a partition in a pool under mode 0 (R443). -/
def State.poolWeight (s : State) (p pool : Nat) : Nat :=
  match pool with
  | 2 => ((s.sv.pools.filter fun e => e.part == p).map fun e => e.gib * 512).sum +
      ((s.sv.regions.filter fun e => e.owner == p).map fun e => if e.guarded then 2 * e.size2m else e.size2m).sum
  | 3 => 1
  | _ => popc 576 (s.sv.eligible p)

/-- Divides a pool's static or idle energy among the valid partitions. -/
def State.divide (s : State) (goal : Option Nat) (pool e : Nat) : List Nat :=
  let ps := s.sv.parts
  match goal with
  | some n => ps.map fun p => if p = n then e else 0
  | none =>
    let w := ps.map fun p => s.poolWeight p pool
    split e (if w.sum = 0 then ps.map fun _ => 1 else w)

/-! Accumulation. -/

/-- Adds a window's energy to a record in the making: domains, pools, the window. -/
def Tally.add (x : Tally) (pj pools : List Nat) : Tally := { x with pj := addL x.pj pj, pools := addL x.pools pools }

/-- A window's energy for unit (p, t): to its tally, to the partition's totals and to its interval. -/
def State.credit (s : State) (p t : Nat) (pj pools : List Nat) : State :=
  s.updPart p fun y => { y with en := { y.en with
    total := addL y.en.total pj, tallies := Tab.upd {} y.en.tallies t fun x => x.add pj pools
    interval := y.en.interval.add pj pools } }

/-- The unit's list with one pool's energy. -/
def poolList (pool e : Nat) : List Nat := (List.range 4).map fun i => if i = pool then e else 0

/-- Marks the records in the making of every valid partition: open tallies and the interval. -/
def State.mark (s : State) (f : Tally → Tally) : State :=
  let open_ := fun (_ : Nat) (x : Tally) => if x.opened || x.aborted then f x else x
  { s with parts := Tab.adjust {} (fun p y => if s.sv.valid p then { y with en := { y.en with
      tallies := Tab.adjust {} open_ y.en.tallies, interval := f y.en.interval } } else y) s.parts }

/-- Record Time's SYNC is 0 at this moment: records in the making carry UNSYNC (R448). -/
def State.noteSync (s : State) : State := if s.sync then s else s.mark fun x => { x with unsync := true }

/-- Reconciles the window that ends (R439 to R444): measured energy per pool, means of voltages and temperatures. -/
def State.reconcile (s : State) (m : Sample) : State :=
  let len := s.clk - s.ckw.winAt
  let es := (List.range 4).map fun i =>
    m.pj.getD i 0 + (if s.ckw.prevLen = 0 then 0 else s.ckw.prev.getD i 0 * s.ckw.gap / s.ckw.prevLen)
  let st := (List.range 4).map fun i => min (es.getD i 0) (Config.staticModel i m.volts (m.temp.getD i 0) len)
  let e := es.sum
  let c := s.ckw
  let s := { s with ckw := { c with
    act := [], pkg := c.pkg + e, power := if len = 0 then c.power else e / len, winAt := s.clk, winRecal := false, gap := 0,
    prev := es, prevLen := len } }
  let ps := s.sv.parts
  if ps.isEmpty then s
  else
    let parts := (List.range 4).map fun i => (i, c.dynamic i (es.getD i 0 - st.getD i 0))
    -- dynamic energy, unit by unit
    let s := parts.foldl (init := s) fun s e => e.2.1.foldl (init := s) fun s u =>
      s.credit (u.1 / 2 ^ 40 - 1) (u.1 % 2 ^ 40) (u.2 ++ [0]) (poolList e.1 u.2.sum)
    let dyn := fun (u : Nat) => (parts.map fun e => ((e.2.1.filter fun x => x.1 == u).map fun x => x.2.sum).sum).sum
    -- static and idle energy
    let s := (ps.zipIdx).foldl (init := s) fun s e =>
      let by_ := parts.map fun x =>
        (s.divide s.sv.staticTo x.1 (st.getD x.1 0)).getD e.2 0 + (s.divide s.sv.idleTo x.1 x.2.2).getD e.2 0
      let us := c.units.filter fun u => u / 2 ^ 40 == e.1 + 1 && dyn u != 0
      let give := if us.isEmpty then [((e.1 + 1) * 2 ^ 40, by_.sum)] else us.zip (split by_.sum (us.map dyn))
      give.foldl (init := s) fun s u =>
        s.credit e.1 (u.1 % 2 ^ 40) [0, 0, 0, 0, 0, u.2]
          (by_.map fun x => if by_.sum = 0 then 0 else u.2 * x / by_.sum)
    let more := fun (x : Tally) => { x with windows := satAdd 0xFFFFFFFF x.windows 1, pkg := x.pkg + e, est := x.est || c.estimating }
    s.mark more

/-! Records (R448, R449). -/

/-- Key i of the device (R423): the label's candidates in turn. -/
def keyFrom (label : List Byte) : Nat → Nat → Nat
  | 0, _ => 1
  | f + 1, i =>
    let c := Config.hmacSha256 Config.pufSeed (label ++ leBytes 4 i)
    if 1 ≤ c ∧ c < Config.p256Order then c else keyFrom label f (i + 1)

def deviceKey : Nat := keyFrom (ascii "OZ-J9 DEVICE") 256 0
def State.aliasKey (s : State) : Nat := keyFrom (ascii "OZ-J9 ALIAS" ++ s.dpt.meas) 256 0
def State.aliasDer (s : State) : List Byte := Config.aliasCert s.aliasKey s.dpt.meas

/-- UNC_PPM (R449): M and W as one fraction, rounded up. -/
def Tally.unc (x : Tally) (cycles : Nat) : Nat :=
  if x.est then 0xFFFFFFFF
  else
    let (a, b) := if cycles ≥ 10000000 then (10000, 1) else if cycles ≤ 100000 then (1000000, 1) else (100000000000, cycles)
    let w := ((List.range 4).map fun i => x.pools.getD i 0 * Config.residual i).sum
    let e := if x.pools.sum = 0 then 1 else x.pools.sum
    ceilDiv (a * e + w * b) (b * e)

/-- The first 192 bytes of a record, with SEQUENCE and ALIAS_CERT_HASH still zero. -/
def State.energyBody (s : State) (p kind tally : Nat) (x : Tally) (uj : List Nat) (pkg : Nat) : List Byte :=
  leBytes 2 0x0100 ++ leBytes 1 kind ++ leBytes 1 p ++ leBytes 4 tally ++
  leBytes 4 (pack [(0, b2n x.aborted), (1, b2n x.unsync), (2, b2n x.recal), (3, b2n x.est)]) ++ leBytes 4 s.flash.boot ++
  leBytes 8 0 ++ padTo 32 (Config.sha256 Config.deviceCert) ++ padTo 32 [] ++ leBytes 8 x.start ++ leBytes 8 s.tim.now ++
  (uj.take 6).flatMap (leBytes 8) ++ leBytes 8 pkg ++ leBytes 4 (x.unc (s.clk - x.cyc)) ++ leBytes 4 x.windows ++
  leBytes 8 Config.devSerial.toNat ++ padTo 16 []

/-! The hold and the ring (R450 to R452). -/

/-- The hold takes one more record: 256 of a partition, 4,096 of the device. -/
def State.holdRoom (s : State) (p : Nat) : Bool :=
  decide ((s.part p).en.hold.length < 256) && decide ((s.parts.map fun e => e.2.en.hold.length).sum < 4096)

/-- A record enters the hold and takes its SEQUENCE. -/
def State.enterEnergy (s : State) (p : Nat) (b : List Byte) : State :=
  s.updPart p fun y => { y with en := { y.en with
    hold := y.en.hold ++ [{ body := b.take 16 ++ leBytes 8 y.en.sq ++ b.drop 24, signed := none }]
    sq := wrapAdd two64 y.en.sq 1 } }

/-- Records of TALLY_CLOSE commands enter the hold as space appears, and those commands may retire. -/
def State.letIn (p : Nat) : Nat → State → State
  | 0, s => s
  | f + 1, s =>
    match (s.part p).en.waiting with
    | [] => s
    | (k, b) :: t =>
      if s.holdRoom p then
        let s := (s.updPart p fun y => { y with en := { y.en with waiting := t } }).enterEnergy p b
        State.letIn p f (s.await p k .done)
      else s

/-- Where the walk of a record's address ends: a seam leaf with W. -/
def State.eringOk (s : State) (p slot va : Nat) : Bool :=
  match s.xlate tlbNone p slot va, s.xlate tlbNone p slot (va + 255) with
  | some { loc := .dev _, w := true, .. }, some { loc := .dev _, w := true, .. } => true
  | _, _ => false

/-- Writes signed records in order while the ring takes them (R451, R452). -/
def State.energyFlush (p : Nat) : Nat → State → State
  | 0, s => s
  | f + 1, s =>
    let en := (s.part p).en
    let b := en.ering.live
    match en.hold with
    | { signed := some r, .. } :: t =>
      if b.size = 0 || modSub two32 en.tail en.head ≥ b.size then s
      else
        let slot := b.base / 2 ^ 56
        let va := b.base % 2 ^ 56 + 256 * (en.tail % b.size)
        if !s.eringOk p slot va then
          let s := if en.fault then s else s.report p 0x0009 0 0 (b.base % 2 ^ 56) [] false
          s.updPart p fun y => { y with en := { y.en with fault := true } }
        else
          let s := s.vwrite tlbNone p slot va r
          let s := s.raise (s.sv.fn p) 3
          let s := s.updPart p fun y => { y with en := { y.en with
            hold := t, tail := wrapAdd two32 y.en.tail 1, fault := false } }
          State.energyFlush p f (State.letIn p 8 s)
    | _ => s

/-- A partition's records go out as far as they can. -/
def State.energyOut (s : State) (p : Nat) : State := State.energyFlush p 4400 (State.letIn p 256 s)

/-- Closes a tally with a record: its remainders go to tally 0 (R448). -/
def State.closeTally (s : State) (p t num : Nat) : List Byte × State :=
  let x := Tab.get {} (s.part p).en.tallies t
  let b := s.energyBody p 1 num x (x.pj.map (· / 1000000)) 0
  (b, s.updPart p fun y => { y with en := { y.en with
    tallies := Tab.upd {} (Tab.clear (· == t) y.en.tallies) 0 fun z => { z with pj := addL z.pj (x.pj.map (· % 1000000)) } } })

/-- The record of a closed tally needs its number: aborted ones carry it apart (their key is two32 or above). -/
def State.endTallies (s : State) (p : Nat) : State :=
  let en := (s.part p).en
  let s := (en.tallies.filter fun e => e.2.aborted).foldl (init := s) fun s e =>
    let (b, s) := s.closeTally p e.1 (e.1 % two32)
    s.enterEnergy p b
  let ks := (s.part p).cmds.filter fun e => e.2.wait == .tally
  ks.foldl (init := s) fun s e =>
    let t := u32 e.2.bytes 4
    let (b, s) := s.closeTally p t t
    if s.holdRoom p && (s.part p).en.waiting.isEmpty then (s.enterEnergy p b).await p e.1 .done
    else (s.updPart p fun y => { y with en := { y.en with waiting := y.en.waiting ++ [(e.1, b)] } }).await p e.1 .hold

/-- The interval of a partition ends with a record of a KIND, 2 INTERVAL or 3 FINAL (R447, R448, R452). -/
def State.endInterval (s : State) (p kind : Nat) : State :=
  let en := (s.part p).en
  let x := en.interval
  if kind = 2 && !s.holdRoom p then s
  else
    let carry := if kind = 2 then en.carryI else en.carryF
    let sum := addL (x.pj ++ [x.pkg]) carry
    let uj := sum.map (· / 1000000)
    let s := s.enterEnergy p (s.energyBody p kind 0 x uj (uj.getD 6 0))
    let rest := sum.map (· % 1000000)
    s.updPart p fun y => { y with en := { y.en with
      interval := { start := s.tim.now, cyc := s.clk, unsync := !s.sync, recal := s.ckw.winRecal }
      carryI := if kind = 2 then rest else y.en.carryI, carryF := if kind = 2 then y.en.carryF else rest } }

/-- A window ends (R439, R446). -/
def State.windowEnd (s : State) (m : Sample) : State :=
  if !s.rel 1 then s
  else
    let s := s.reconcile m
    s.sv.parts.foldl (fun s p => (s.endTallies p).energyOut p) s

/-- A cut (R447): within 10 ms of the last honoured one it is only counted; else the window and every interval end. -/
def State.cut (s : State) (m : Sample) (kind : Nat) : State :=
  if s.clk - s.ckw.cutAt < 10000000 then
    s.sv.parts.foldl (init := s) fun s p =>
      s.updPart p fun y => { y with en := { y.en with cutsSkipped := satAdd 0xFFFFFFFF y.en.cutsSkipped 1 } }
  else
    let recal := s.ckw.winRecal
    let s := s.windowEnd m
    let s := { s with ckw := { s.ckw with winRecal := recal, cutAt := s.clk } }
    let s := s.sv.parts.foldl (fun s p => (s.endInterval p kind).energyOut p) s
    { s with ckw := { s.ckw with winRecal := false } }

/-- The Checkweigher works: D1 is released and the device has power. -/
def State.ckwOn (s : State) : Bool := s.rel 1

/-- The cut that a forward step of Record Time brings (R338): what the converters give at it is free (log entry 101). -/
def State.stepCut (s : State) : State :=
  if !s.ckwOn then s
  else
    let (l, s) := State.draws 12 s
    s.cut { pj := l.take 4, volts := (l.drop 4).take 4, temp := l.drop 8 } 2

/-! The rows. -/

/-- WINDOW_END (R439): 1,000,000 cycles after the last. -/
def execWindowEnd (m : Sample) (s : State) : Host.Outcome State Fault Refusal :=
  if s.ckwOn && decide (s.clk - s.ckw.winAt ≥ 1000000) then .next (s.windowEnd m) else .next s

/-- AUTO_CUT (R447): with no cut honoured for 1 s of cycles. -/
def execAutoCut (m : Sample) (s : State) : Host.Outcome State Fault Refusal :=
  if s.ckwOn && decide (s.clk - s.ckw.cutAt ≥ 1000000000) then .next (s.cut m 2) else .next s

/-- REFERENCE_CHECK (R438): a converter's drift from the calibrated reference, in ppm. -/
def execReferenceCheck (conv drift : Nat) (s : State) : Host.Outcome State Fault Refusal :=
  if !s.ckwOn || s.ckw.faulty.contains conv || drift ≤ 1000 then .next s
  else if drift ≤ 5000 then
    let s := { s with ckw := { s.ckw with winRecal := true } }
    .next ((s.mark fun x => { x with recal := true }).pit 6 5 (leBytes 1 conv ++ leBytes 1 conv ++ leBytes 2 0 ++ leBytes 4 drift ++ leBytes 1 1))
  else
    let s := { s with ckw := { s.ckw with faulty := s.ckw.faulty ++ [conv], estimating := true } }
    let s := s.mark fun x => { x with est := true }
    .next (s.reportDev 0x0016 11 conv 0 (leBytes 1 conv ++ leBytes 3 0 ++ leBytes 4 drift) true)

/-- A record with the alias certificate's hash and the alias key's signature (R448, R450). -/
def State.signRec (s : State) (x : ERec) : ERec :=
  if x.signed.isSome then x
  else
    let b := x.body.take 56 ++ padTo 32 (Config.sha256 s.aliasDer) ++ x.body.drop 88
    { x with body := b, signed := some (b ++ padTo 64 (Config.ecdsaSign s.aliasKey (Config.sha256 b))) }

/-- ENERGY_RECORD_SIGN (R450): the Deputy signs the oldest unsigned record of a partition's hold with its alias key. After a walk
failure records wait for the window's end (R452). -/
def execEnergyRecordSign (p : Nat) (s : State) : Host.Outcome State Fault Refusal :=
  if !s.dpt.up then .next s
  else
    let go := fun (l : List ERec) => match l.findIdx? fun x => x.signed.isNone with
      | some i => l.modify i s.signRec
      | none => l
    let s := s.updPart p fun y => { y with en := { y.en with hold := go y.en.hold } }
    .next (if (s.part p).en.fault then s else s.energyOut p)

/-- CHECKWEIGHER_SELF_RESET (R455): at most 50 µs go unmeasured, a free value; records that span them are estimates. -/
def execCheckweigherSelfReset (s : State) : Host.Outcome State Fault Refusal :=
  if !s.ckwOn then .next s
  else
    let (v, s) := s.draw
    let s := { s with
      ckw := { s.ckw with gap := s.ckw.gap + v.toNat % 50001 }
      rst := { s.rst with ckwSelf := satAdd 0xFF s.rst.ckwSelf 1 } }
    .next ((s.mark fun x => { x with est := true }).pit 0x000B 5 (leBytes 1 3))

end Sys2Proof.Machine
end

