-- ==== Sys2Proof/Machine/Reduce.lean ====
section
/-!
DEFINITION. In-fabric reduction (R375 to R394): joins, steps, sums in rank order, updates, verdicts and decisions.
-/

namespace Sys2Proof.Machine

/-! Chunks and shards (R377). -/

def Job.chunks (j : Job) : Nat := ceilDiv j.len 60
def Job.perRank (j : Job) : Nat := ceilDiv j.chunks j.ranks
def Job.owner (j : Job) (c : Nat) : Nat := c / j.perRank
/-- The chunks of this rank's shard. -/
def Job.shard (j : Job) : List Nat :=
  (List.range j.perRank).filterMap fun i => let c := j.rank * j.perRank + i; if c < j.chunks then some c else none
/-- Values in a chunk. -/
def Job.count (j : Job) (c : Nat) : Nat := min 60 (j.len - 60 * c)
def Job.tail (j : Job) : Nat := j.ranks - 1
def fmtSize (f : Nat) : Nat := if f = 0 then 4 else 2

/-- The slot that holds a job. -/
def State.jobSlot (s : State) (id : Nat) : Option Nat :=
  (s.jobs.find? fun e => e.2.state != .free && e.2.job == id).map (·.1)

/-! The unit's memory accesses (class 4 of R37), charged to the RED_STEP's tally (R389). -/

def Job.tally (s : State) (j : Job) : Nat := s.cmdTally j.part j.args.cmd

/-- Reads n bytes, line by line: none when an address does not translate to readable memory. A host leaf's bytes are asked for, and free:
they are the host's (log entry 79). -/
def State.redRead (s : State) (j : Job) (va n : Nat) : Option (List Byte × Bool) × State :=
  (linePieces (n + 1) va 0 (List.replicate n 0#8)).foldl (init := (some ([], false), s)) fun (d, s) e =>
    let m := e.2.length
    match d, s.xlate tlbNone j.part j.slot (va + e.1) with
    | some (d, q), some { loc := .dev a, r := true, .. } =>
      match s.vread tlbNone j.part j.slot (va + e.1) m with
      | some x => (some (d ++ x.1, q || x.2), s.homeRead (s.req j.part (j.tally s) 4) a)
      | none => (none, s)
    | some (d, q), some { loc := .host i a _, r := true, .. } =>
      match s.hostAsk j.part i a m (.red j.part) with
      | some s =>
        let (l, s) := (State.draws m s)
        (some (d ++ l.map fun v => BitVec.ofNat 8 v, q), s.charge j.part (j.tally s) 10 (ceilDiv m 64))
      | none => (none, s)
    | _, _ => (none, s)

/-- Writes bytes to memory or a host window. -/
def State.redWrite (s : State) (j : Job) (va : Nat) (d : List Byte) (poison : Bool := false) : State :=
  let t := j.tally s
  (linePieces (d.length + 1) va 0 d).foldl (init := s) fun s e =>
    match s.xlate tlbNone j.part j.slot (va + e.1) with
    | some { loc := .dev a, w := true, .. } => s.homeWrite (s.req j.part t 4) a e.2 poison
    | some { loc := .host i a _, w := true, .. } =>
      if poison then s else ((s.send i (.write (s.hostFn j.part i) a e.2 false)).noteHost j.part j.args.ring i).charge j.part t 10 (ceilDiv e.2.length 64)
    | _ => s

/-- Every page of a range satisfies a test. -/
def State.rangeOk (s : State) (p slot va n : Nat) (ok : Xl → Bool) : Bool :=
  n == 0 || (List.range ((va + n - 1) / 65536 + 1 - va / 65536)).all fun i =>
    match s.xlate tlbNone p slot (if i = 0 then va else (va / 65536 + i) * 65536) with
    | some x => ok x
    | none => false

/-- A leaf of memory, the device's or a host's, with the permissions asked for (R384). -/
def Xl.mem (x : Xl) (r w : Bool) : Bool :=
  (match x.loc with | .dev _ | .host _ _ _ => true | _ => false) && (!r || x.r) && (!w || x.w)

/-! The wire (R380, R381). -/

/-- A payload: the reduction header and DATA. -/
def redBody (m : RedMsg) : List Byte :=
  leBytes 2 m.job ++ leBytes 2 m.rank ++ leBytes 4 m.stp ++ leBytes 4 m.period ++ leBytes 3 m.chunk ++
  leBytes 1 (b2n m.poison) ++ m.data.flatMap fun w => leBytes 4 w.toNat

/-- Sends a reduction flit to a rank. -/
def State.redSend (s : State) (i type goal chunk : Nat) (poison : Bool) (data : List Word) : State :=
  let j := s.job i
  let m : RedMsg := { job := j.job, rank := j.rank, stp := j.step, period := j.at_.period, chunk := chunk, poison := poison, data := data }
  let s := s.originate type (j.table.getD goal 0) (0x8000 + j.job * 4 + chunk % 4) (2 ^ 32 - 1) (redBody m)
  (s.charge j.part (j.tally s) 7 1).charge j.part (j.tally s) 9 1

/-! Contributions and sums (R383). -/

/-- This rank's contribution to a chunk, in FP32, and whether an element was poisoned. -/
def State.contribution (s : State) (j : Job) (c : Nat) : Option (List Nat × Bool) × State :=
  let e := fmtSize j.sfmt
  match s.redRead j (j.args.src + c * 60 * e) (j.count c * e) with
  | (some (d, q), s) => (some ((List.range (j.count c)).map fun i => cvtFrom j.sfmt 0 0 (leAt d (i * e) e), q), s)
  | (none, s) => (none, s)

def words (l : List Nat) : List Word := l.map (BitVec.ofNat 32)
def nats (l : List Word) : List Nat := l.map (·.toNat)
def wordBytes (l : List Nat) : List Byte := l.flatMap (leBytes 4)

/-- Values in PARAM_FMT (R386). -/
def paramBytes (f : Nat) (l : List Nat) : List Byte := l.flatMap fun v => leBytes (fmtSize f) (cvtTo f 0 0 v)

/-- One element of an UPDATE (R388): weight, first and second moment from the sum. -/
def Job.update (j : Job) (w m v sum : Nat) : Nat × Nat × Nat :=
  let a := j.args
  let g := fmul 0 sum a.gscale.toNat
  let lr := a.lr.toNat
  let w := if j.wd.toNat % 2 ^ 31 = 0 then w else fsub 0 w (fmul 0 (fmul 0 lr j.wd.toNat) w)
  match j.rule with
  | 0 => (fsub 0 w (fmul 0 lr g), m, v)
  | 1 => let m := fadd 0 (fmul 0 j.b1.toNat m) g; (fsub 0 w (fmul 0 lr m), m, v)
  | _ =>
    let c1 := fsub 0 0x3F800000 j.b1.toNat
    let c2 := fsub 0 0x3F800000 j.b2.toNat
    let m := fadd 0 (fmul 0 j.b1.toNat m) (fmul 0 c1 g)
    let v := fadd 0 (fmul 0 j.b2.toNat v) (fmul 0 c2 (fmul 0 g g))
    let d := fadd 0 (fsqrt 0 (fmul 0 v a.bc2.toNat)) j.eps.toNat
    (fsub 0 w (fmul 0 lr (fdiv 0 m d)), m, v)

/-- The arrays of the shard state (R387): TAGS, W, M, V at entry n of the shard. -/
def Job.tagAt (j : Job) (n : Nat) : Nat := j.stateVa + 4 * n
def Job.arrayAt (j : Job) (a n : Nat) : Nat :=
  j.stateVa + alignUp (4 * j.perRank) 64 + a * alignUp (240 * j.perRank) 64 + 240 * n
/-- Bytes of the state. -/
def Job.stateSize (j : Job) : Nat :=
  alignUp (4 * j.perRank) 64 + (match j.rule with | 0 => 1 | 1 => 2 | _ => 3) * alignUp (240 * j.perRank) 64

/-- An owner applies its rule to a chunk whose tag differs from STEP (R386, R387): the parameters that W then holds. -/
def State.applyChunk (s : State) (i c : Nat) (sum : List Nat) : Option (List Nat) × State :=
  let j := s.job i
  let n := c - j.rank * j.perRank
  let len := 4 * j.count c
  let vals := fun (d : List Byte) => (List.range (j.count c)).map fun k => leAt d (4 * k) 4
  let array := fun (s : State) (a : Nat) => match s.redRead j (j.arrayAt a n) len with
    | (some (d, _), s) => (some (vals d), s)
    | (none, s) => (none, s)
  match s.redRead j (j.tagAt n) 4 with
  | (some (tag, _), s) =>
    match array s 0 with
    | (some w, s) =>
      if leVal tag = j.step then (some w, s)
      else
        let (m, s) := if j.rule = 0 then (some (w.map fun _ => 0), s) else array s 1
        let (v, s) := if j.rule ≤ 1 then (some (w.map fun _ => 0), s) else array s 2
        let m := m.getD (w.map fun _ => 0)
        let v := v.getD (w.map fun _ => 0)
        let r := (List.range (j.count c)).map fun k => j.update (w.getD k 0) (m.getD k 0) (v.getD k 0) (sum.getD k 0)
        let s := s.redWrite j (j.arrayAt 0 n) (wordBytes (r.map (·.1)))
        let s := if j.rule = 0 then s else s.redWrite j (j.arrayAt 1 n) (wordBytes (r.map (·.2.1)))
        let s := if j.rule ≤ 1 then s else s.redWrite j (j.arrayAt 2 n) (wordBytes (r.map (·.2.2)))
        (some (r.map (·.1)), s.redWrite j (j.tagAt n) (leBytes 4 j.step))
    | (none, s) => (none, s)
  | (none, s) => (none, s)

/-- A chunk's final sum reaches its owner (R385, R386). -/
def State.ownSum (s : State) (i c : Nat) (sum : List Nat) (poison : Bool) : State :=
  let j := s.job i
  let got := fun (s : State) => s.updJob i fun x => { x with at_ := { x.at_ with sums := Tab.set none x.at_.sums c (some poison) } }
  if j.mode = 0 then
    got (s.redWrite j (j.args.dest + 240 * (c - j.rank * j.perRank)) (wordBytes (sum.map fun v => fmul 0 v j.args.gscale.toNat)) poison)
  else if poison then got s
  else
    match s.applyChunk i c sum with
    | (some w, s) =>
      let s := s.redWrite j (j.args.dest + c * 60 * fmtSize j.pfmt) (paramBytes j.pfmt w)
      got ((List.range j.ranks).foldl (fun s r => if r = j.rank then s else s.redSend i 0x32 r c false (words w)) s)
    | (none, s) => s

/-- The tail has a chunk's final sum. -/
def State.finalSum (s : State) (i c : Nat) (sum : List Nat) (poison : Bool) : State :=
  let j := s.job i
  if j.owner c = j.rank then s.ownSum i c sum poison else s.redSend i 0x31 (j.owner c) c poison (words sum)

/-- This rank adds its contribution to a partial sum, or begins one, and sends it on. -/
def State.addPart (s : State) (i c : Nat) (part : Option (List Nat)) (poison : Bool) : State :=
  let j := s.job i
  match s.contribution j c with
  | (none, s) => s
  | (some (x, q), s) =>
    let sum := match part with | some p => List.zipWith (fun a b => fadd 0 a b) p x | none => x
    let s := s.charge j.part (j.tally s) 7 1
    if j.rank = j.tail then s.finalSum i c sum (poison || q) else s.redSend i 0x30 (j.rank + 1) c (poison || q) (words sum)

/-! Attempts (R384, R390, R391). -/

/-- GO for a job ID in a period (R384): an armed job begins. -/
def State.jobGo (s : State) (id period : Nat) : State :=
  match s.jobSlot id with
  | none => s
  | some i =>
    if (s.job i).state != .armed then s
    else
      let s := s.updJob i fun x => { x with
        state := .running, at_ := { x.at_ with period := period, sums := [], params := [], verdicts := [], deadline := false } }
      if (s.job i).rank = 0 then (List.range (s.job i).chunks).foldl (fun s c => s.addPart i c none false) s else s

/-- The outcome word (R390). -/
def outcomeWord (code late step : Nat) : Nat := code + late * 2 ^ 16 + step * 2 ^ 32

/-- An attempt ends at this rank: OUTCOME is written and the RED_STEP may retire. -/
def State.jobEnd (s : State) (i code late : Nat) : State :=
  let j := s.job i
  let s := s.redWrite j j.args.outcome (leBytes 8 (outcomeWord code late j.step))
  let ret := match code with | 1 => 0 | 2 => 0x0B | 3 => 0x04 | _ => 0x45
  let s := if ret = 0 then s.await j.part j.args.cmd .done else s.fail j.part j.args.cmd ret
  (s.updJob i fun x => { x with
    state := .joined
    at_ := { x.at_ with
      late := late, code := code, whole := if code = 1 then some x.step else x.at_.whole
      sums := [], params := [], verdicts := [], deadline := false } }).semCheck

/-- This rank's verdict (R390). -/
def Job.verdict (j : Job) : Nat :=
  let own := j.shard.map fun c => Tab.get none j.at_.sums c
  let rest := j.mode = 0 || (List.range j.chunks).all fun c => j.owner c == j.rank || Tab.get false j.at_.params c
  if own.any (·.isNone) then 2 else if own.any (· == some true) then 3 else if rest then 1 else 2

/-- The tail decides (R390): the code and LATE_RANK. -/
def Job.decision (j : Job) : Nat × Nat :=
  let v := (List.range j.ranks).map fun r => Tab.get 0 j.at_.verdicts r
  let late := (v.findIdx? fun x => x == 0 || x == 2).getD 0xFFFF
  (if v.contains 3 then 3 else if late != 0xFFFF then 2 else 1, late)

/-- The decision goes to every other rank, and ends the tail's attempt. -/
def State.jobDecide (s : State) (i : Nat) : State :=
  let j := s.job i
  let (code, late) := j.decision
  let s := (List.range j.tail).foldl (fun s r => s.redSend i 0x34 r 0 false [BitVec.ofNat 32 (code + late * 2 ^ 16)]) s
  s.jobEnd i code late

/-- The tail decides once it holds every verdict and its own deadline has passed. -/
def State.jobCheck (s : State) (i : Nat) : State :=
  let j := s.job i
  if j.state == .deciding && j.rank == j.tail && (List.range j.ranks).all (fun r => Tab.get 0 j.at_.verdicts r != 0)
  then s.jobDecide i else s

/-- STEP_DEADLINE for a job ID (R390): a running attempt closes and its verdict goes to the tail. -/
def State.jobDeadline (s : State) (id : Nat) : State :=
  match s.jobSlot id with
  | none => s
  | some i =>
    let j := s.job i
    if j.state != .running then s
    else
      let v := j.verdict
      let s := s.updJob i fun x => { x with state := .deciding, at_ := { x.at_ with deadline := true } }
      if j.rank = j.tail then
        (s.updJob i fun x => { x with at_ := { x.at_ with verdicts := Tab.set 0 x.at_.verdicts j.rank v } }).jobCheck i
      else s.redSend i 0x33 j.tail 0 false [BitVec.ofNat 32 v]

/-- A job's buffer is freed; its RED_STEP, if any, is no longer waited for. -/
def State.jobFree (s : State) (i : Nat) : State := { s with jobs := Tab.clear (· == i) s.jobs }

/-- The flit's job with an attempt in progress that matches it (R382); a device without an ID accepts none (R354, R373); a stale flit is counted, one of no joined job dropped. -/
def State.redMatch (s : State) (m : RedMsg) (f : Nat → Job → State → State) : State :=
  if !s.rel 6 then s
  else if s.devId.isNone then s.badFlit
  else
    match s.jobSlot m.job with
    | none => s
    | some i =>
      let j := s.job i
      if (j.state == .running || j.state == .deciding) && j.step == m.stp && j.at_.period == m.period
      then f i j ((s.charge j.part (j.tally s) 9 1))
      else s.updPart j.part fun x => { x with stale := satAdd 0xFFFFFFFF x.stale 1 }

/-! RED_JOIN and LEAVE (R378, R379). -/

/-- The body of a reduction command. -/
def State.redBody (s : State) (p k : Nat) : List Byte := slice (s.cmd p k).bytes 16 48

def joinBad (b : List Byte) : Bool :=
  let mode := u8 b 6
  let rule := u8 b 7
  decide (u16 b 0 ≥ 4096 ∨ u16 b 2 ≥ u16 b 4 ∨ u16 b 4 > 16384 ∨ mode > 1 ∨ u32 b 8 = 0 ∨ u32 b 8 > 536870912 ∨ u8 b 13 > 2 ∨
    u8 b 14 > 1 ∨ u8 b 15 ≠ 0 ∨ u64 b 16 % 64 ≠ 0 ∨ u64 b 24 % 64 ≠ 0 ∨ rule > 2) ||
  (mode == 0 && (rule != 0 || u8 b 14 != 0 || u64 b 24 != 0 || u32 b 44 != 0)) ||
  (rule == 0 && u32 b 32 != 0) || (rule != 2 && (u32 b 36 != 0 || u32 b 40 != 0))

def semJoin (p k : Nat) (s : State) : State :=
  let b := s.redBody p k
  let id := u16 b 0
  let rank := u16 b 2
  let ranks := u16 b 4
  let slot := u8 b 12
  if joinBad b then s.fail p k 0x01
  else if !s.asOn p slot then s.fail p k 0x02
  else if !s.sv.grant p 2 || !s.sv.jobOk p id then s.fail p k 0x0A
  else
    match s.devId with
    | none => s.fail p k 0x44
    | some me =>
      if (s.jobSlot id).isSome then s.fail p k 0x40
      else
        let tier := (List.range 4).find? fun t => decide ((s.jobs.filter fun e => e.2.state != .free && e.2.tier == t).length < 16)
        let free := (List.range 64).find? fun i => (s.job i).state == .free
        match tier, free with
        | some t, some i =>
          match s.cpRead p k slot (u64 b 16) (2 * ranks) with
          | (some (d, false), s) =>
            let ids := (List.range ranks).map fun r => u16 d (2 * r)
            if ids.any (fun x => decide (x > 16383)) || !ids.Nodup || ids.getD rank 65535 != me then s.fail p k 0x42
            else
              s.updJob i fun _ => {
                state := .joined, part := p, job := id, rank := rank, ranks := ranks, mode := u8 b 6, rule := u8 b 7
                len := u32 b 8, slot := slot, sfmt := u8 b 13, pfmt := u8 b 14, tier := t, table := ids, stateVa := u64 b 24
                b1 := BitVec.ofNat 32 (u32 b 32), b2 := BitVec.ofNat 32 (u32 b 36), eps := BitVec.ofNat 32 (u32 b 40)
                wd := BitVec.ofNat 32 (u32 b 44) }
          | (_, s) => s.fail p k 0x42 (u64 b 16)
        | _, _ => s.fail p k 0x41

def semLeave (p k : Nat) (s : State) : State :=
  let b := s.redBody p k
  let id := u16 b 0
  if decide (id ≥ 4096) || !gapsZero b 0 [(0, 2), (15, 1)] || u8 b 15 != 1 then s.fail p k 0x01
  else if !s.sv.grant p 2 || !s.sv.jobOk p id then s.fail p k 0x0A
  else
    match s.jobSlot id with
    | none => s
    | some i =>
      if (s.job i).part != p then s
      else if (s.job i).state == .joined then s.jobFree i else s.fail p k 0x43

/-! RED_STEP (R384). -/

def semStep (p k : Nat) (s : State) : State :=
  let b := s.redBody p k
  let id := u16 b 0
  if decide (id ≥ 4096) || u64 b 24 % 8 != 0 || !gapsZero b 0 [(0, 2), (4, 40)] then s.fail p k 0x01
  else if !s.sv.grant p 2 || !s.sv.jobOk p id then s.fail p k 0x0A
  else
    match s.jobSlot id with
    | none => s.fail p k 0x40
    | some i =>
      let j := s.job i
      let es := fmtSize j.sfmt
      let ep := if j.mode = 0 then 4 else fmtSize j.pfmt
      let n := if j.mode = 0 then 240 * j.perRank else j.len * ep
      let n := if j.mode = 0 then min n (4 * (j.len - min j.len (60 * j.rank * j.perRank))) else n
      if j.part != p then s.fail p k 0x40
      else if u64 b 8 % es != 0 || u64 b 16 % ep != 0 then s.fail p k 0x01
      else if j.state != .joined then s.fail p k 0x43
      else if !s.rangeOk p j.slot (u64 b 8) (j.len * es) (Xl.mem · true false) then s.fail p k 0x03 (u64 b 8)
      else if !s.rangeOk p j.slot (u64 b 16) n (Xl.mem · false true) then s.fail p k 0x03 (u64 b 16)
      else if !s.vwritable tlbNone p j.slot (u64 b 24) 8 then s.fail p k 0x03 (u64 b 24)
      else if j.mode = 1 && !s.rangeOk p j.slot j.stateVa j.stateSize (Xl.mem · true true) then s.fail p k 0x03 j.stateVa
      else
        let a : StepArgs := {
          src := u64 b 8, dest := u64 b 16, outcome := u64 b 24, gscale := BitVec.ofNat 32 (u32 b 32)
          lr := BitVec.ofNat 32 (u32 b 36), bc2 := BitVec.ofNat 32 (u32 b 40), cmd := k, ring := (s.cmd p k).ring }
        let s := s.updJob i fun x => { x with args := a }
        if j.at_.whole = some (u32 b 4) then
          (s.redWrite (s.job i) a.outcome (leBytes 8 (outcomeWord 1 0xFFFF (u32 b 4)))).semCheck
        else
          let s := (s.updJob i fun x => { x with step := u32 b 4 }).redWrite (s.job i) a.outcome [0#8]
          (s.updJob i fun x => { x with state := .armed }).await p k (.red i)

/-! The rows. -/

/-- A reduction command with JFLAGS.LEAVE as its row has it. -/
def joinCmd (sem : Nat → Nat → State → State) (leave : Nat) (p n : Nat) (c : List Byte) (s : State) : Host.Outcome State Fault Refusal :=
  let c := padTo (max 64 c.length) c
  let f := u8 c 31
  .next (ringCmd { used := [(16, 48)], sem := sem } 0x14 p n (c.take 31 ++ [BitVec.ofNat 8 (f - f % 2 + leave)] ++ c.drop 32) s)

def execRedJoin (p n : Nat) (c : List Byte) (s : State) : Host.Outcome State Fault Refusal := joinCmd semJoin 0 p n c s
def execLeave (p n : Nat) (c : List Byte) (s : State) : Host.Outcome State Fault Refusal := joinCmd semLeave 1 p n c s
def execRedStep (p n : Nat) (c : List Byte) (s : State) : Host.Outcome State Fault Refusal :=
  .next (ringCmd { used := [(16, 48)], sem := semStep } 0x15 p n c s)

/-- RED_PART (R383): rank k takes it from rank k − 1. -/
def execRedPart (m : RedMsg) (s : State) : Host.Outcome State Fault Refusal :=
  .next (s.redMatch m fun i j s =>
    if j.state == .running && j.rank == m.rank + 1 && decide (m.chunk < j.chunks)
    then s.addPart i m.chunk (some (nats (m.data.take (j.count m.chunk)))) m.poison else s)

/-- RED_SUM (R385, R386): the tail's sum of a chunk of this rank's shard. -/
def execRedSum (m : RedMsg) (s : State) : Host.Outcome State Fault Refusal :=
  .next (s.redMatch m fun i j s =>
    if j.state == .running && m.rank == j.tail && decide (m.chunk < j.chunks) && j.owner m.chunk == j.rank
    then s.ownSum i m.chunk (nats (m.data.take (j.count m.chunk))) m.poison else s)

/-- RED_PARAM (R386): an owner's updated parameters of a chunk. -/
def execRedParam (m : RedMsg) (s : State) : Host.Outcome State Fault Refusal :=
  .next (s.redMatch m fun i j s =>
    if j.state == .running && j.mode == 1 && decide (m.chunk < j.chunks) && j.owner m.chunk == m.rank && m.rank != j.rank then
      (s.redWrite j (j.args.dest + m.chunk * 60 * fmtSize j.pfmt) (paramBytes j.pfmt (nats (m.data.take (j.count m.chunk))))).updJob i
        fun x => { x with at_ := { x.at_ with params := Tab.set false x.at_.params m.chunk true } }
    else s)

/-- RED_VERDICT (R390): the tail records it, and decides once it holds them all. -/
def execRedVerdict (m : RedMsg) (s : State) : Host.Outcome State Fault Refusal :=
  .next (s.redMatch m fun i j s =>
    let v := (m.data.headD 0).toNat % 256
    if j.rank == j.tail && decide (m.rank < j.tail) && decide (1 ≤ v ∧ v ≤ 3)
    then (s.updJob i fun x => { x with at_ := { x.at_ with verdicts := Tab.set 0 x.at_.verdicts m.rank v } }).jobCheck i
    else s)

/-- RED_DECISION (R390): the tail's decision. -/
def execRedDecision (m : RedMsg) (s : State) : Host.Outcome State Fault Refusal :=
  .next (s.redMatch m fun i j s =>
    let w := (m.data.headD 0).toNat
    if j.rank != j.tail && m.rank == j.tail && decide (1 ≤ w % 256 ∧ w % 256 ≤ 3) then s.jobEnd i (w % 256) (w / 65536) else s)

/-- DECISION_TIMEOUT (R390): 50 µs after its deadline the tail of the job decides with the verdicts it holds. -/
def execDecisionTimeout (job : Nat) (s : State) : Host.Outcome State Fault Refusal :=
  match s.jobSlot job with
  | some i => .next (if (s.job i).state == .deciding && (s.job i).rank == (s.job i).tail then s.jobDecide i else s)
  | none => .next s

/-- NO_DECISION_TIMEOUT (R390): 100 µs after its deadline a rank without a decision retires with RED_NO_DECISION. -/
def execNoDecisionTimeout (job : Nat) (s : State) : Host.Outcome State Fault Refusal :=
  match s.jobSlot job with
  | some i => .next (if (s.job i).state == .deciding && (s.job i).rank != (s.job i).tail then s.jobEnd i 5 0xFFFF else s)
  | none => .next s

end Sys2Proof.Machine
end

