-- ==== Sys2Proof/Machine/Time.lean ====
section
/-!
DEFINITION. Record Time and the cadence (R321 to R341): the passing of cycles, pulses, sources over the fabric, corrections and
steps, cadence sets and their events.
-/

namespace Sys2Proof.Machine

/-! The passing of cycles (R322, R326). -/

/-- Record Time moves on by n units of 2^-16 ns. -/
def Tim.run (t : Tim) (n : Nat) : Tim :=
  let f := t.frac + n
  { t with now := wrapAdd two64 t.now (f / 65536), frac := f % 65536 }

/-- One cycle: 1 ns, and of a slew 500 ppm, which is 4096 / 125 units. -/
def Tim.tick (t : Tim) : Tim :=
  if t.slew = 0 then t.run 65536
  else
    let a := t.slewAcc + 4096
    let d := min (a / 125) t.slew.natAbs
    let t := { t with slewAcc := a % 125 }
    if t.slew > 0 then { t.run (65536 + d) with slew := t.slew - d } else { t.run (65536 - d) with slew := t.slew + d }

/-- An adit request of a copy that has had no answer for 1 ms fails (R193, R194, R196); those of gangs have rows of their own. -/
def State.copyTimeouts (s : State) : State :=
  let old := s.fab.tags.filter fun e => (match e.2 with | some (.copy _ _ _ _ _ _ _) | some (.head _ _ _ _ _) => true | _ => false) &&
    decide (Tab.get 0 s.fab.tagAt e.1 + 1000000 ≤ s.clk + 1)
  old.foldl (fun s e => s.tagAnswer e.1 false [] 0) s

/-- One cycle of the arithmetic clock passes. Record Time runs once D1 is released; credits and acknowledgements come back on Horash
ports. -/
def State.tick (s : State) : State :=
  let s := { s with clk := s.clk + 1 }
  let s := if s.rel 1 then { s with tim := s.tim.tick } else s
  (s.fab.ports.keys.foldl (fun s i => s.portCycle i) s).copyTimeouts

/-! States (R323). -/

/-- A change of STATE raises the timebase interrupt. -/
def State.setTim (s : State) (f : Tim → Tim) : State :=
  let old := s.tim.state
  let s := { s with tim := f s.tim }
  (if s.tim.state = old then s else s.raisePrimary 5).noteSync

/-! Sources (R329). -/

/-- A candidate: CLASS, HOPS, ROOT and port. -/
structure Source where
  cls : Nat
  hops : Nat
  root : Nat
  port : Option Nat
  deriving DecidableEq, Repr

/-- Candidates in the order of R329. -/
def Source.before (a b : Source) : Bool :=
  if a.cls ≠ b.cls then decide (a.cls < b.cls)
  else if a.hops ≠ b.hops then decide (a.hops < b.hops)
  else if a.root ≠ b.root then decide (a.root < b.root)
  else match a.port, b.port with | none, some _ => true | some i, some j => decide (i < j) | _, none => false

/-- The device's own time: its PPS while locked to it, else its reference. -/
def Tim.own (t : Tim) : Source :=
  let c := match t.state with | .lockedPps => 0 | .holdover => if t.expired then 3 else 2 | _ => 3
  { cls := c, hops := 0, root := Config.devSerial.toNat, port := none }

/-- The source that the device takes. -/
def State.source (s : State) : Source :=
  let t := s.tim
  let cs := if bit t.ctrl 1 then t.nbrs.filterMap fun e =>
      let n := e.2
      if n.serve && decide (n.hops < 15) && n.root != Config.devSerial.toNat && s.portUp e.1
      then some { cls := n.cls, hops := n.hops + 1, root := n.root, port := some e.1 : Source } else none
    else []
  cs.foldl (fun a c => if c.before a then c else a) t.own

/-- Takes a source: a change moves the device to ACQUIRING, a loss of every source to HOLDOVER (R329). -/
def State.takeSource (s : State) (c : Source) : State :=
  s.setTim fun t =>
    match c.port with
    | some i =>
      let u := { t with port := some i, hops := c.hops, root := c.root, cls := c.cls }
      if t.port = some i then u
      else { u with state := .acquiring, good := 0, nbrs := Tab.upd {} t.nbrs i fun n => { n with good := 0, offsets := [] } }
    | none =>
      let u := { t with port := none, hops := 0, root := Config.devSerial.toNat, cls := c.cls }
      if t.port.isSome then { u with state := .holdover, expired := false, good := 0 } else u

/-- Takes the source of R329. -/
def State.retime (s : State) : State := s.takeSource s.source

/-- A port no longer offers time. -/
def State.timLost (s : State) (port : Nat) : State :=
  ({ s with tim := { s.tim with nbrs := Tab.clear (· == port) s.tim.nbrs } }).retime

/-! Cadence sets (R331, R332, R336). -/

/-- Bits of TARGET that an event leaves unused are zero. -/
def slotFieldsOk (v : Nat) : Bool :=
  let t := slotTarget v
  bits v 27 24 == 0 &&
  (match slotEvent v with
   | 1 => bits t 23 20 == 0 && bits t 15 8 == 0
   | 2 => decide (t < 4096)
   | 7 => decide (t < 4096)
   | 3 => t == 0
   | 4 => t == 0
   | 5 => t == 0
   | 6 => t == 0
   | _ => false)

def rising : List Nat → Bool
  | a :: b :: t => decide (a ≤ b) && rising (b :: t)
  | _ => true

/-- SHOT_BEGIN and SHOT_END alternate, a BEGIN first and an END last (R335). -/
def paired : Bool → List Nat → Bool
  | open_, [] => !open_
  | false, e :: t => if e = 3 then paired true t else if e = 4 then false else paired false t
  | true, e :: t => if e = 4 then paired false t else if e = 3 then false else paired true t

/-- The commit status of a cadence set under a Survey (R336): 0, 1 MISMATCH, 2 RANGE, 3 BOUNDS. -/
def CadSet.check (c : CadSet) (v : Survey) : Nat :=
  if c.period < 10 || c.period > 100000 || c.count > 256 then 2
  else
    let vs := c.vals
    if vs.any fun x => decide (slotOffset x ≥ c.ns) || !slotFieldsOk x then 2
    else if !rising (vs.map slotOffset) || !paired false (vs.map slotEvent) then 1
    else if vs.any fun x => slotEvent x == 1 &&
        (!v.valid (bits (slotTarget x) 19 16) || (slotTarget x % 256 &&& (255 - v.levels (bits (slotTarget x) 19 16) % 256)) != 0) then 3
    else 0

/-- The live cadence holds a shot window. -/
def CadSet.windows (c : CadSet) : Bool := c.vals.any fun x => slotEvent x == 3

/-- The length of the window that the BEGIN of slot k opens. -/
def CadSet.winLen (c : CadSet) (k : Nat) : Nat :=
  match (c.vals.drop (k + 1)).find? fun x => slotEvent x == 4 with
  | some x => slotOffset x - slotOffset (c.slot k)
  | none => 0

/-- The longest window of the set. -/
def CadSet.maxWin (c : CadSet) : Nat :=
  (List.range c.count).foldl (fun m k => if slotEvent (c.slot k) = 3 then max m (c.winLen k) else m) 0

def State.updCad (s : State) (f : Cadence → Cadence) : State := { s with tim := { s.tim with cad := f s.tim.cad } }

/-! Events (R333, R334). -/

/-- SHOT_END: the window closes, and unforced moves stop (R275, R335). -/
def State.closeWindow (s : State) : State :=
  if s.tim.cad.window.isNone then s
  else s.sv.parts.foldl (fun s p => s.pauseMoves p) (s.latchMoves.updCad fun c => { c with window := none })

/-- The value of slot k, when the event of that kind is the next of the current period and its time has come. In Refuge the cadence
fires nothing (R341). -/
def State.slotDue (s : State) (k ev : Nat) : Option Nat :=
  let c := s.tim.cad
  match c.live with
  | some x =>
    if s.rst.refuge = 0 && c.begun && decide (k < x.count) && c.next == k && slotEvent (x.slot k) == ev && decide (s.tim.now ≥ c.start + slotOffset (x.slot k))
    then some (x.slot k) else none
  | none => none

/-- The event of slot k fires: `f` acts on TARGET. -/
def State.slotFire (s : State) (k ev : Nat) (f : Nat → State → State) : State :=
  match s.slotDue k ev with
  | some v => f (slotTarget v) (s.updCad fun c => { c with next := k + 1 })
  | none => s

/-- GATE_OPEN counts once toward each waiting GATE_WAIT of the partition at the levels of the mask (R302). -/
def State.gateOpen (s : State) (p levels : Nat) : State :=
  let count := fun (_ : Nat) (c : Cmd) =>
    match c.wait with
    | .gate n => if bit levels c.ring then { c with wait := if n ≤ 1 then .done else .gate (n - 1) } else c
    | _ => c
  s.updPart p fun x => { x with cmds := Tab.adjust {} count x.cmds }

/-- PERIOD of a GO (R384). -/
def State.period (s : State) : Nat :=
  let c := s.tim.cad
  match c.live with | some x => if x.ns = 0 then 0 else c.start / x.ns % two32 | none => 0

/-! Steps (R326, R338). -/

/-- TIME_WAITs whose TIME has come may retire. -/
def State.timeWaits (s : State) : State :=
  let now := s.tim.now
  let pass := fun (_ : Nat) (c : Cmd) =>
    match c.wait with
    | .time t => if t ≤ now then { c with wait := .done } else c
    | _ => c
  { s with parts := Tab.adjust {} (fun _ x => { x with cmds := Tab.adjust {} pass x.cmds }) s.parts }

/-- The pending set becomes live (R337); none: the cadence is removed. -/
def State.takeCadence (s : State) (c : Option CadSet) (from_ : Nat) : State :=
  (if s.tim.cad.live.isNone then s.latchMoves else s).updCad fun x => { x with
    live := c, pend := none, count := wrapAdd 65536 x.count 1, status := 0, periods := 0, start := from_, begun := false, next := 0 }

/-- The boundary at which a pending set takes effect, once it has come (R337): the end of the current period, or the first multiple
of the new set's period when no cadence is live. -/
def Cadence.ended (c : Cadence) (now : Nat) : Option Nat :=
  match c.live, c.pend with
  | none, some (some y) => if now ≥ alignUp c.start y.ns then some (alignUp c.start y.ns) else none
  | none, _ => some c.start
  | some x, _ => if !c.begun then some c.start else if now ≥ c.start + x.ns then some (c.start + x.ns) else none

/-- Record Time has stepped forward from `old` (R338): what was passed over. -/
def State.stepped (s : State) : State :=
  let s := s.closeWindow
  let c := s.tim.cad
  let now := s.tim.now
  let s := match c.live with
    | none => s.updCad fun y => { y with start := now }
    | some x =>
      if !c.begun then s.updCad fun y => { y with start := now }
      else
        let passed := fun (k : Nat) =>
          decide (c.start + slotOffset (x.slot k) ≤ now) && (decide (k ≥ c.next) || decide (c.start + x.ns + slotOffset (x.slot k) ≤ now))
        let ks := if s.rst.refuge = 0 then (List.range x.count).filter passed else []
        let s : State := if (ks.any fun k => slotEvent (x.slot k) == 5) then s.stepCut else s
        let ids := ((ks.filter fun k => slotEvent (x.slot k) == 7).map fun k => slotTarget (x.slot k)).eraseDups
        let s := ids.foldl (fun (s : State) i => s.jobDeadline i) s
        let above := decide (now ≥ c.start + x.ns)
        if above && c.pend.isSome then s.takeCadence (c.pend.getD none) now
        else
          let start := now / x.ns * x.ns
          s.updCad fun y => { y with
            start := start, next := ((List.range x.count).find? fun k => decide (start + slotOffset (x.slot k) > now)).getD x.count }
  s.timeWaits

/-- Corrects an error in ns (R326): above 1 ms a step, else a slew, which replaces any slew under way. -/
def State.correct (s : State) (err : Int) : State :=
  if err > 1000000 then
    let old := s.tim.now
    let s := { s with tim := { s.tim with
      now := wrapAdd two64 old err.toNat, slew := 0, slewAcc := 0, steps := satAdd 0xFFFFFFFF s.tim.steps 1 } }
    s.stepped
  else { s with tim := { s.tim with slew := err * 65536, slewAcc := 0 } }

/-! Rows: the timebase. -/

/-- An error as TIM_PPS_ERR.ERROR shows it (R340). -/
def ppsErr (e : Int) : Nat := twos 24 (max (-8388607) (min 8388607 e))

/-- PPS_EDGE (R324, R325, R327): a rising edge that stays high for `high` ns. -/
def execPpsEdge (high : Nat) (s : State) : Host.Outcome State Fault Refusal :=
  let t := s.tim
  if !s.rel 1 || !bit t.ctrl 0 then .next s
  else
    let ok := decide (high ≥ 1000) && match t.edgeAt with
      | some c => if s.clk - c ≤ 1500000000 then decide (999000000 ≤ s.clk - c ∧ s.clk - c ≤ 1001000000) else true
      | none => true
    if !ok then .next { s with tim := { t with rejects := satAdd 0xFF t.rejects 1 } }
    else
      let base := if bit t.stage 63 then bits t.stage 33 0 * 1000000000 else (t.now + 500000000) / 1000000000 * 1000000000
      let err : Int := (base : Int) + sgn 32 t.delay - t.now
      let good := if err.natAbs ≤ 20 then t.good + 1 else 0
      let s := { s with tim := { t with
        edgeAt := some s.clk, err := ppsErr err, last := t.now, good := min good 4
        stage := t.stage - bits t.stage 33 0 + (bits t.stage 33 0 + 1) % 2 ^ 34 } }
      let lock := fun (t : Tim) => { t with state := .lockedPps, port := none, hops := 0, root := Config.devSerial.toNat, cls := 0 }
      if t.port.isSome then
        -- a fabric source is chosen: the edge is measured, and PPS taken once it is locked and so ranks higher (R341)
        .next (if good ≥ 4 then (s.setTim lock).correct err else s)
      else
        let s := s.setTim fun t =>
          if good ≥ 4 then lock t
          else if t.state = .lockedPps then t
          else { t with state := .acquiring }
        .next (s.correct err)

/-- PPS_TIMEOUT (R327): no edge has been accepted for 1.5 s. -/
def execPpsTimeout (s : State) : Host.Outcome State Fault Refusal :=
  let t := s.tim
  if t.port.isNone && (t.state == .lockedPps || t.state == .acquiring) then
    let u := fun (t : Tim) => { t with state := .holdover, expired := false, good := 0 }
    let c := ({ s with tim := u t } : State).source
    if c.port.isSome then .next (s.takeSource c) else .next (s.setTim u)
  else .next s

/-- HOLDOVER_EXPIRY (R323): after 100 s in HOLDOVER, CLASS 3 and SYNC 0. -/
def execHoldoverExpiry (s : State) : Host.Outcome State Fault Refusal :=
  if s.tim.state = .holdover then .next (({ s with tim := { s.tim with expired := true } }).noteSync).retime else .next s

/-- Cycles until a slew has removed its error. -/
def Tim.slewCycles (t : Tim) : Nat := ceilDiv (t.slew.natAbs * 125 - t.slewAcc) 4096

/-- The Record Time of the cadence's next event, period or set (R331, R334, R337). -/
def State.nextEvent (s : State) : Option Nat :=
  let c := s.tim.cad
  match c.live with
  | some x =>
    if x.ns = 0 then none
    else if !c.begun then some (alignUp c.start x.ns)
    else if c.next < x.count ∧ s.rst.refuge = 0 then some (c.start + slotOffset (x.slot c.next))
    else some (c.start + x.ns)
  | none => match c.pend with | some (some y) => if y.ns = 0 then none else some (alignUp c.start y.ns) | _ => none

/-- The cycles in which a slew brings Record Time to a point in ns; 0 when it is there. -/
def Tim.cyclesTo (t : Tim) (at_ : Nat) : Nat :=
  let d := 125 * (at_ * 65536) - 125 * (t.now * 65536 + t.frac)
  if d = 0 then 0
  else if t.slew > 0 then ceilDiv (d - t.slewAcc) (125 * 65536 + 4096)
  else (d - 125 + t.slewAcc) / (125 * 65536 - 4096) + 1

/-- n cycles of a slew pass, at most those it still takes. -/
def Tim.slewBy (t : Tim) (n : Nat) : Tim :=
  let a := t.slewAcc + 4096 * n
  let d := min (a / 125) t.slew.natAbs
  let r := if t.slew > 0 then t.run (n * 65536 + d) else t.run (n * 65536 - d)
  let left : Int := if t.slew > 0 then t.slew - d else t.slew + d
  { r with slew := left, slewAcc := if left = 0 then 0 else a % 125 }

/-- SLEW_END (R326): the cycles that the slew still takes pass, and its error is removed. A slew passes over no event (R338): it goes on
only to the cadence's next one, which fires before the slew is ended (log entry 100). -/
def execSlewEnd (s : State) : Host.Outcome State Fault Refusal :=
  let t := s.tim
  if t.slew = 0 then .next s
  else
    let n := match s.nextEvent with | some e => min t.slewCycles (t.cyclesTo e) | none => t.slewCycles
    .next { s with clk := s.clk + n, tim := t.slewBy n }

/-- TIME (R328, R329): a neighbour's message measures delay and offset, and may change the choice of source. -/
def execTime (port : Nat) (m : TimeMsg) (s : State) : Host.Outcome State Fault Refusal :=
  if !s.portUp port then .next s
  else
    let now : Int := s.tim.now
    let t1 : Int := m.echoTx
    let t2 : Int := m.echoRx
    let t3 : Int := m.tTx
    let x := Tab.get {} s.tim.nbrs port
    let first := m.echoTx = 0 && m.echoRx = 0
    let delay := if first then x.delay else ((now - t1) - (t3 - t2)) / 2
    let off := ((t2 - t1) - (now - t3)) / 2
    let offs := if first then x.offsets else (x.offsets ++ [off]).drop (x.offsets.length - 7)
    let x := { x with
      tTx := m.tTx, tRx := s.tim.now, delay := delay, offsets := offs, root := m.root, cls := m.cls % 4, hops := m.hops, serve := m.serve }
    let s := ({ s with tim := { s.tim with nbrs := Tab.set {} s.tim.nbrs port x } }).retime
    -- a change of source has begun the filter anew
    let x := Tab.get {} s.tim.nbrs port
    if s.tim.port != some port || first || x.offsets.length < 8 then .next s
    else
      let f := Config.offsetFilter x.offsets
      let good := if f.natAbs ≤ 40 then x.good + 1 else 0
      let s := { s with tim := { s.tim with nbrs := Tab.upd {} s.tim.nbrs port fun n => { n with good := min good 8 } } }
      let s := s.setTim fun t => if good ≥ 8 then { t with state := .lockedFabric } else t
      .next (s.correct f)

/-- A TIME message for a port (R328). -/
def State.timeBody (s : State) (port : Nat) : List Byte :=
  let x := Tab.get {} s.tim.nbrs port
  leBytes 8 s.tim.now ++ leBytes 8 x.tTx ++ leBytes 8 x.tRx ++
  leBytes 8 (if s.tim.port.isSome then s.tim.root else Config.devSerial.toNat) ++ leBytes 1 s.cls ++ leBytes 1 s.tim.hops ++
  leBytes 1 (b2n (bit s.tim.ctrl 2))

/-- A message to the neighbour of a port. -/
def State.linkFlit (s : State) (port type : Nat) (body : List Byte) : State :=
  s.putFlit port 32 (2 ^ 32 - 1) { type := type, hops := 31, dest := 0, src := s.devId.getD 0, flow := 0xC000, body := padTo 256 body }

/-- The ports in state UP. -/
def State.upPorts (s : State) : List Nat := (List.range 32).filter s.portUp

/-- TIME_EXCHANGE_TIMER (R328): a TIME message goes out on each UP port. -/
def execTimeExchangeTimer (s : State) : Host.Outcome State Fault Refusal :=
  .next (s.upPorts.foldl (fun s i => (s.linkFlit i 2 (s.timeBody i)).chargeIdle 9 1) s)

/-- TIM_SET (R330): while FREE, Record Time is corrected to the written value. -/
def execTimSet (q v : Nat) (s : State) : Host.Outcome State Fault Refusal :=
  .next (s.globalOp q 6 fun s => if s.tim.state = .free then s.correct ((v % two64 : Nat) - (s.tim.now : Int)) else s)

/-! Rows: the cadence. -/

/-- CADENCE_PERIOD_START (R331, R337): the period that has ended swaps in a pending set; the next period, once its start has come,
begins, and the placement engine evaluates (R273). -/
def execCadencePeriodStart (s : State) : Host.Outcome State Fault Refusal :=
  let c := s.tim.cad
  let now := s.tim.now
  let s := match c.ended now, c.pend with
    | some e, some p => (s.closeWindow).takeCadence p e
    | _, _ => s
  let c := s.tim.cad
  match c.live with
  | none => .next s
  | some x =>
    if x.ns = 0 then .next s
    else
      let due := if c.begun then decide (now ≥ c.start + x.ns) else decide (now ≥ alignUp c.start x.ns)
      if !due then .next s
      else
        let s := s.updCad fun y => { y with
          start := if y.begun then y.start + x.ns else alignUp y.start x.ns, begun := true, next := 0, periods := wrapAdd two64 y.periods 1 }
        .next s.agePeriods.evaluateAll

/-- GATE_OPEN (R333). -/
def execGateOpen (k : Nat) (s : State) : Host.Outcome State Fault Refusal :=
  .next (s.slotFire k 1 fun t s => s.gateOpen (bits t 19 16) (t % 256))

/-- GO (R333, R384). -/
def execGo (k : Nat) (s : State) : Host.Outcome State Fault Refusal :=
  .next (s.slotFire k 2 fun t s => s.jobGo t s.period)

/-- SHOT_END (R335). -/
def execShotEnd (k : Nat) (s : State) : Host.Outcome State Fault Refusal :=
  .next (s.slotFire k 4 fun _ s => s.closeWindow)

/-- TALLY_CUT (R447). -/
def execTallyCut (k : Nat) (m : Sample) (s : State) : Host.Outcome State Fault Refusal :=
  .next (s.slotFire k 5 fun _ s => if s.ckwOn then s.cut m 2 else s)

/-- SNAPSHOT (R333): Record Time is latched and every ring's progress counters are sampled; while Crew is down the counters
keep their last samples (R432, R497). -/
def execSnapshot (k : Nat) (s : State) : Host.Outcome State Fault Refusal :=
  let sample := fun (_ : Nat) (r : Ring) => { r with snapRetired := r.retired, snapInstr := r.instr }
  .next (s.slotFire k 6 fun _ s => { s with
    tim := { s.tim with snap := s.tim.now }
    parts := if s.dpt.crewUp then Tab.adjust {} (fun _ x => { x with rings := Tab.adjust {} sample x.rings }) s.parts else s.parts })

/-- STEP_DEADLINE (R390). -/
def execStepDeadline (k : Nat) (s : State) : Host.Outcome State Fault Refusal :=
  .next (s.slotFire k 7 fun t s => s.jobDeadline t)

/-- TIME_WAIT_REACHED (R302): Record Time has reached a waiting command's TIME. -/
def execTimeWaitReached (p k : Nat) (s : State) : Host.Outcome State Fault Refusal :=
  match (s.cmd p k).wait with
  | .time t => .next (if t ≤ s.tim.now then s.await p k .done else s)
  | _ => .next s

end Sys2Proof.Machine
end

