-- ==== Sys2Proof/Machine/Conveyors.lean ====
section
/-!
DEFINITION. Conveyors (R124 to R127, R266, R370): pushes and pops of gangs, entries and credits across the fabric, closing.
-/

namespace Sys2Proof.Machine

/-! Entries. -/

/-- Entries that may still be pushed: the buffer's room, or at a producer whose consumer is on another device the 64 KiB that
it may hold (R370). -/
def Conveyor.room (c : Conveyor) : Nat :=
  if c.consumer = 0xFF then 65536 / cvBytes c.width - c.buf.length else c.depth - c.buf.length

/-- Up to m entries from sequence number q, in messages of at most 192 bytes (R370). -/
def State.cvSend (p i : Nat) : Nat → Nat → List (BitVec 128) → State → State
  | 0, _, _, s => s
  | f + 1, q, l, s =>
    if l.isEmpty then s
    else
      let c := s.conv p i
      let w := cvBytes c.width
      let n := min l.length (192 / w)
      let body := leBytes 1 c.rconv ++ leBytes 1 i ++ leBytes 1 c.width ++ leBytes 1 n ++ leBytes 4 q ++ leBytes 8 0 ++
        (l.take n).flatMap fun e => leBytes w e.toNat
      let s := (s.originate 0x20 c.dev (0x4000 + p * 256 + c.rconv) (s.sv.portGrant p) body).charge p 0 9 1
      State.cvSend p i f (wrapAdd two32 q n) (l.drop n) s

/-- The producer sends the entries that it may: below FREED + capacity, after the first CV_CREDIT (R370). -/
def State.cvFlush (s : State) (p i : Nat) : State :=
  let c := s.conv p i
  if c.consumer != 0xFF || !c.credit || c.dead then s
  else
    let have_ := modSub two32 c.sent c.received
    let may := min c.buf.length (modSub two32 (c.freed + c.depth) c.received)
    if may ≤ have_ then s
    else
      let l := (c.buf.take may).drop have_
      (State.cvSend p i l.length c.sent l s).updConv p i fun x => { x with sent := wrapAdd two32 x.received may }

/-- A CV_CREDIT: the consumer end reports RECEIVED and FREED to a producer on another device, and either end sends CLOSE
(R370). The flow names the producer end's partition (R361); a consumer end, which does not know it, names its own (log entry
17). -/
def State.cvReport (s : State) (p i : Nat) (close : Bool) : State :=
  let c := s.conv p i
  let (pr, co) := if c.consumer = 0xFF then (i, c.rconv) else (c.rconv, i)
  let body := leBytes 1 pr ++ leBytes 1 co ++ leBytes 1 (b2n close) ++ leBytes 1 0 ++ leBytes 4 c.received ++ leBytes 4 c.freed
  ((s.originate 0x21 c.dev (0x4000 + p * 256 + co) (s.sv.portGrant p) body).charge p 0 9 1).updConv p i fun x => { x with
    sentRecv := x.received, sentFreed := x.freed, told := true }

/-- Reports after a change of RECEIVED or FREED. -/
def State.cvChanged (s : State) (p i : Nat) : State :=
  let c := s.conv p i
  if c.producer = 0xFF && !c.dead && (c.received != c.sentRecv || c.freed != c.sentFreed) then s.cvReport p i false else s

/-! Pushes and pops. -/

/-- Entries join the conveyor (R125). -/
def State.cvAppend (s : State) (p i : Nat) (l : List (BitVec 128)) : State :=
  (s.updConv p i fun x => { x with buf := x.buf ++ l }).cvFlush p i

/-- The first n entries leave the conveyor (R126). -/
def State.cvTake (s : State) (p i n : Nat) : State :=
  (s.updConv p i fun x => { x with buf := x.buf.drop n, freed := wrapAdd two32 x.freed n }).cvChanged p i

/-- The entries that lanes of a gang push from a register. -/
def Gang.cvEntries (x : Gang) (reg n : Nat) (lanes : List Nat) : List (BitVec 128) :=
  lanes.map fun l => BitVec.ofNat 128
    ((List.range n).foldl (fun a i => a + (Tab.get 0 x.regs ((reg + i) * 32 + l)).toNat * 2 ^ (32 * i)) 0)

/-- Delivers the entries l to lanes in ascending order: a lane without one reads zero, and its predicate bit says which. -/
def Gang.cvDeliver (x : Gang) (reg n pd : Nat) : List Nat → List (BitVec 128) → Gang
  | [], _ => x
  | a :: t, l => Gang.cvDeliver ((x.setReg reg n a (l.headD 0#128).toNat 0).setPred pd a !l.isEmpty) reg n pd t (l.drop 1)

/-- A conveyor that no longer brings entries: closed, or its far end unreachable (R126, R127). -/
def Conveyor.ended (c : Conveyor) : Bool := c.closed || (c.producer == 0xFF && c.dead) || !c.declared

/-- Registers of an entry. -/
def Conveyor.regs (c : Conveyor) : Nat := 2 ^ c.width

/-- The lanes of a completed wait go on. -/
def State.cvWake (s : State) (g lanes : Nat) : State :=
  s.updGang g fun x => (setBits 32 lanes).foldl (fun x l => x.updLane l fun y => { y with wait := .none }) x

/-- A push to an unreachable far end completes without appending (R127): STORE_ERR, and one STORE_LOST record. -/
def State.cvLost (s : State) (p i g : Nat) : State :=
  (s.updGang g fun x => { x with storeErr := true }).report p 0x0002 10 i 0 (leBytes 4 0 ++ leBytes 1 i)

/-- A waiting push completes if it can. -/
def State.cvPushTry (s : State) (p i : Nat) (w : CvWait) : State :=
  let c := s.conv p i
  let lanes := setBits 32 w.lanes
  let drop := fun (s : State) => (s.updConv p i fun x => { x with pushers := x.pushers.erase w }).cvWake w.gang w.path
  if c.dead then (drop s).cvLost p i w.gang
  else if lanes.length ≤ c.room then (drop s).cvAppend p i ((s.gang w.gang).cvEntries w.reg c.regs lanes)
  else s

/-- A waiting pop completes if it can. -/
def State.cvPopTry (s : State) (p i : Nat) (w : CvWait) : State :=
  let c := s.conv p i
  let lanes := setBits 32 w.lanes
  if lanes.length ≤ c.buf.length || c.ended then
    let n := min lanes.length c.buf.length
    let s := s.updConv p i fun x => { x with poppers := x.poppers.erase w }
    let s := s.updGang w.gang fun x => x.cvDeliver w.reg c.regs (w.pd.getD 0) lanes (c.buf.take n)
    (s.cvWake w.gang w.path).cvTake p i n
  else s

/-- Waiting pushes and pops are looked at again, in the order in which they began to wait (log entry 18), until nothing moves. -/
def State.cvSettle (p i : Nat) : Nat → State → State
  | 0, s => s
  | f + 1, s =>
    let c := s.conv p i
    let n := c.pushers.length + c.poppers.length
    let s := c.pushers.foldl (fun s w => s.cvPushTry p i w) s
    let s := (s.conv p i).poppers.foldl (fun s w => s.cvPopTry p i w) s
    let c' := s.conv p i
    if c'.pushers.length + c'.poppers.length < n then State.cvSettle p i f s else s

def State.cvGo (s : State) (p i : Nat) : State :=
  let c := s.conv p i
  s.cvSettle p i (c.pushers.length + c.poppers.length + 1)

/-- A conveyor is closed (R126, R267): waiting pops take what remains, and the other device is told. -/
def State.cvClose (p i : Nat) (s : State) : State :=
  let c := s.conv p i
  let s := if c.producer = 0xFF || c.consumer = 0xFF then s.cvReport p i true else s
  (s.updConv p i fun x => { x with closed := true }).cvGo p i

/-- The far ends on a device have become unreachable (R127, R366). -/
def State.cvDead (s : State) (d : Nat) : State :=
  let es := s.parts.flatMap fun e => (e.2.plc.conveyors.filter fun c =>
    c.2.far && c.2.dev == d && !c.2.dead).map fun c => (e.1, c.1)
  es.foldl (fun s e => (s.updConv e.1 e.2 fun x => { x with dead := true }).cvGo e.1 e.2) s

/-- They have become reachable again. -/
def State.cvAlive (s : State) (d : Nat) : State :=
  let es := s.parts.flatMap fun e => (e.2.plc.conveyors.filter fun c => c.2.dead && c.2.dev == d).map fun c => (e.1, c.1)
  es.foldl (fun s e => (s.updConv e.1 e.2 fun x => { x with dead := false }).cvFlush e.1 e.2) s

/-! Instructions. -/

/-- CV.PUSH, CV.POP and their TRY forms (R107, R124 to R127): field faults, the binding, the data register, then `f` with the
conveyor's number and the register. The binding's width sets how many registers D names. When room or entries lack, the whole path
waits. A push that fits goes ahead of one that already waits (DESIGN CHOICE, log entry 18: R125 orders the pushes made, not the waits);
a CV.POP.TRY that takes nothing leaves D as it was (DEDUCED, log entry 97: R126 gives it PD alone). -/
def semCv (pop try_ : Bool) (c : Ctx) (s : State) : Issue :=
  let port := c.f 29 26
  let bind := Tab.get none c.x.k.binds port
  let n := match bind with | some b => 2 ^ b.width | none => 1
  let d : Opd := { kind := 0, idx := c.f 49 42, n := n }
  -- CV.POP names no PD (R107): its PD is zero, so it sets p0 (R126; log entry 19)
  let use := fD + fID + if try_ then fPD else 0
  match c.check (c.sBad use) (if pop then [] else [d]) (if pop then [d] else []) with
  | some i => i
  | none =>
    match bind with
    | none => .trap 0x0E (extra16 (port + 0xFF * 256) 0)
    | some b =>
      let p := c.x.k.part
      let i := b.conveyor
      let cv := s.conv p i
      let m := c.lanes.length
      let pd := c.f 32 30
      let w : CvWait := { gang := c.g, path := c.path, lanes := c.act, reg := d.idx, pd := some pd }
      let setAll := fun (s : State) (v : Bool) => s.updGang c.g fun x => c.lanes.foldl (fun x l => x.setPred pd l v) x
      let wait := fun (s : State) (x : Wait) =>
        s.updGang c.g fun y => (setBits 32 c.path).foldl (fun y l => y.updLane l fun z => { z with wait := x }) y
      if b.pop != pop then .trap 0x0E (extra16 (port + i * 256) 0)
      else if m = 0 then .ok s [] false
      else if !pop then
        if cv.dead then .ok (if try_ then setAll (s.cvLost p i c.g) false else s.cvLost p i c.g) [] false
        else if m ≤ cv.room then
          let s := (s.cvAppend p i (c.x.cvEntries d.idx n c.lanes)).cvGo p i
          .ok (if try_ then setAll s true else s) [] false
        else if try_ then .ok (setAll s false) [] false
        else .ok (wait (s.updConv p i fun x => { x with pushers := x.pushers ++ [w] }) (.cvPush port)) [] true
      else if m ≤ cv.buf.length || (!try_ && cv.ended) then
        let k := min m cv.buf.length
        let s := s.updGang c.g fun x => x.cvDeliver d.idx n pd c.lanes (cv.buf.take k)
        .ok ((s.cvTake p i k).cvGo p i) [] false
      else if try_ then .ok (setAll s false) [] false
      else .ok (wait (s.updConv p i fun x => { x with poppers := x.poppers ++ [w] }) (.cvPop port)) [] true

/-! Messages. -/

/-- The conveyor end that a message names: its own number, the source device and the far end's number (R370). -/
def State.cvFind (s : State) (i src far : Nat) (consumer : Bool) : Option Nat :=
  (s.parts.find? fun e => e.2.plc.conveyors.any fun c =>
    c.1 == i && c.2.declared && c.2.dev == src && c.2.rconv == far &&
    (if consumer then c.2.producer == 0xFF else c.2.consumer == 0xFF)).map (·.1)

/-- One received entry: kept by its sequence number unless it is already held (R370). -/
def Conveyor.receive (c : Conveyor) (q : Nat) (e : BitVec 128) : Conveyor :=
  let k := modSub two32 q c.received
  if k < c.depth then { c with ahead := Tab.set none c.ahead (q % two32) (some e) } else c

/-- Entries that have become first in order join the buffer. -/
def Conveyor.advance : Nat → Conveyor → Conveyor
  | 0, c => c
  | f + 1, c =>
    match Tab.get none c.ahead c.received with
    | some e => Conveyor.advance f { c with
        buf := c.buf ++ [e], ahead := Tab.set none c.ahead c.received none, received := wrapAdd two32 c.received 1 }
    | none => c

/-- CV_DATA (R370). -/
def execCvData (m : CvDataMsg) (s : State) : Host.Outcome State Fault Refusal :=
  if s.devId.isNone then .next s.badFlit
  else
    match s.cvFind m.conveyor m.src m.producer true with
    | none => .next s
    | some p =>
      let s := s.updConv p m.conveyor fun c =>
        let c := (m.entries.zipIdx).foldl (fun c e => c.receive (m.sq + e.2) e.1) c
        c.advance (c.ahead.length + 1)
      .next ((s.cvChanged p m.conveyor).cvGo p m.conveyor)

/-- CV_CREDIT (R370): a producer's window, or a CLOSE from either end. -/
def execCvCredit (m : CvCreditMsg) (s : State) : Host.Outcome State Fault Refusal :=
  if s.devId.isNone then .next s.badFlit
  else
    match s.cvFind m.producer m.src m.consumer false with
    | some p =>
      let s := s.updConv p m.producer fun c =>
        let n := modSub two32 m.received c.received
        let c := if n ≤ c.buf.length then { c with buf := c.buf.drop n, received := wrapAdd two32 c.received n } else c
        let f := if modSub two32 m.freed c.freed ≤ c.depth then m.freed % two32 else c.freed
        let c := if modSub two32 c.sent c.received > two32 / 2 then { c with sent := c.received } else c
        { c with freed := f, credit := true, closed := c.closed || m.close }
      .next ((s.cvFlush p m.producer).cvGo p m.producer)
    | none =>
      if !m.close then .next s
      else
        match s.cvFind m.consumer m.src m.producer true with
        | some p => .next ((s.updConv p m.consumer fun c => { c with closed := true }).cvGo p m.consumer)
        | none => .next s

/-- CV_CREDIT_TIMER (R370): while either counter differs from the value last sent, or nothing has been sent yet. -/
def execCvCreditTimer (p c : Nat) (s : State) : Host.Outcome State Fault Refusal :=
  let x := s.conv p c
  if x.declared && x.producer = 0xFF && !x.closed &&
     (x.received != x.sentRecv || x.freed != x.sentFreed || !x.told)
  then .next (s.cvReport p c false) else .next s

/-- CV_RESEND (R370): all outstanding entries go out again. -/
def execCvResend (p c : Nat) (s : State) : Host.Outcome State Fault Refusal :=
  let x := s.conv p c
  let n := modSub two32 x.sent x.received
  if x.declared && x.consumer = 0xFF && x.credit && !x.dead && 0 < n && n ≤ x.buf.length then
    .next (State.cvSend p c n x.received (x.buf.take n) s)
  else .next s

end Sys2Proof.Machine
end

