-- ==== Sys2Proof/Machine/Fabric.lean ====
section
/-!
DEFINITION. The Horash fabric (R342 to R369): ports, discovery, topology, device IDs and the leader, routes and
reachability, flits in transit, inbound and answered adit requests.
-/

namespace Sys2Proof.Machine

/-! Messages that the device sends. -/

/-- An ID as HELLO carries it. -/
def idField (i : Option Nat) : Nat := match i with | some d => d + 2 ^ 15 | none => 0

/-- The HELLO of a port (R351). -/
def State.helloBody (s : State) (i : Nat) : List Byte :=
  let x := s.fabPort i
  leBytes 8 Config.devSerial.toNat ++ leBytes 2 (idField s.devId) ++ leBytes 1 i ++ leBytes 1 1 ++ leBytes 1 x.width ++
  leBytes 1 (pack [(0, b2n s.sv.leadOffer), (1, b2n s.fab.isLeader)]) ++ leBytes 2 0 ++ leBytes 8 s.clk ++ leBytes 8 x.echo

/-- Sends a HELLO on a port. -/
def State.hello (s : State) (i : Nat) : State :=
  ((s.linkFlit i 1 (s.helloBody i)).updFabPort i fun x => { x with lastTx := s.clk }).chargeIdle 9 1

/-- A flooded message goes out on every UP port but one (R350). -/
def State.flood (s : State) (type : Nat) (body : List Byte) (not : Option Nat) : State :=
  (s.upPorts.filter fun i => not != some i).foldl (fun s i => (s.linkFlit i type body).chargeIdle 9 1) s

/-- The device's own link state (R353). -/
def State.ownLsa (s : State) : LsaRec :=
  { serial := Config.devSerial.toNat, id := s.devId, lead := s.sv.leadOffer, sq := s.fab.lsaSeq
    ports := s.upPorts.map fun i => let x := s.fabPort i; { own := i, nbrPort := x.nbrPort, nbrId := x.nbrId } }

/-- The payload of an LSA (R353). -/
def lsaBody (r : LsaRec) : List Byte :=
  leBytes 8 r.serial ++ leBytes 2 (idField r.id) ++ leBytes 1 (b2n r.lead) ++ leBytes 1 r.ports.length ++ leBytes 4 r.sq ++
  r.ports.flatMap fun e => leBytes 1 e.own ++ leBytes 1 e.nbrPort ++ leBytes 2 (idField e.nbrId)

/-- The device floods its own LSA, when it has an UP port (R353) and Crew is up (R432). -/
def State.floodLsa (s : State) : State :=
  if s.upPorts.isEmpty || !s.dpt.crewUp then s
  else
    let s := s.updFab fun x => { x with lsaSeq := wrapAdd two32 x.lsaSeq 1 }
    s.flood 3 (lsaBody s.ownLsa) none

/-! Topology and routes (R353, R358, R359). -/

/-- Both ends list a link between two devices. -/
def LsaRec.adjacent (a b : LsaRec) : Bool :=
  a.ports.any fun e => b.ports.any fun f =>
    e.nbrPort == f.own && f.nbrPort == e.own && e.nbrId == b.id && f.nbrId == a.id

/-- The own ports that lead to a neighbour whose LSA lists them too. -/
def State.portsTo (s : State) (r : LsaRec) : List Nat :=
  s.upPorts.filter fun i =>
    let x := s.fabPort i
    x.nbrSerial == r.serial && r.ports.any fun f => f.own == x.nbrPort && f.nbrPort == i && f.nbrId == s.devId

/-- Devices level by level with the ports that begin a path of fewest hops to each: `seen` so far, `front` the last level. -/
def fabLevels (all : List LsaRec) : Nat → List (LsaRec × List Nat) → List (LsaRec × List Nat) → List (LsaRec × List Nat)
  | 0, seen, _ => seen
  | f + 1, seen, front =>
    let next := all.filterMap fun r =>
      if seen.any fun e => e.1.serial == r.serial then none
      else
        let ps := front.flatMap fun e => if e.1.adjacent r then e.2 else []
        if ps.isEmpty then none else some (r, (List.range 32).filter ps.contains)
    if next.isEmpty then seen else fabLevels all f (seen ++ next) next

/-- The devices in the topology that a path of UP links reaches, each with its first ports. -/
def State.fabPaths (s : State) : List (LsaRec × List Nat) :=
  let one := s.fab.lsdb.filterMap fun r => let ps := s.portsTo r; if ps.isEmpty then none else some (r, ps)
  fabLevels s.fab.lsdb s.fab.lsdb.length one one

/-- An entry from its ports: at most the first four (R358, R359). -/
def routeOf (ps : List Nat) : Nat :=
  ((ps.take 4).zipIdx).foldl (fun w e => w + e.1 * 2 ^ (5 * e.2) + 2 ^ (24 + e.2)) 0

/-- The device declares d unreachable (R366): answers still due from it fail (R194, R257), stores to it still buffered are
lost (R193), conveyors to it end (R127). -/
def State.unreach (s : State) (d : Nat) : State :=
  let tags := (s.fab.tagDev.filter fun e => e.2 == d + 1).map (·.1)
  let s := tags.foldl (fun s t => s.tagAnswer t false [] 0) s
  let ents := s.subs.flatMap fun e => (e.2.filter fun x => match x.loc with | .adit _ _ v _ _ => v == d | _ => false).map fun x => (e.1, x)
  let s := ents.foldl (fun s e => s.storeLost e.1 e.2) s
  s.cvDead d

/-- The declarations that the topology, the routes and the holds call for (R366). -/
def State.refreshReach (s : State) : State :=
  let ids := s.fabPaths.filterMap fun e => e.1.id
  let ok := fun d => s.devId.isSome && ids.contains d && !(s.livePorts d (2 ^ 32 - 1)).isEmpty && !Tab.get false s.fab.reachHold d
  let old := s.fab.reach
  let lost := old.keys.filter fun d => !ok d
  let new := (ids.filter fun d => ok d && !Tab.get false old d).eraseDups
  let s := s.updFab fun x => { x with
    reach := new.foldl (fun t d => Tab.set false t d true) (Tab.clear lost.contains x.reach) }
  new.foldl (fun s d => s.cvAlive d) (lost.foldl (fun s d => s.unreach d) s)

/-- The topology has changed: computed entries (R358, R359) and reachability. -/
def State.reroute (s : State) : State :=
  let paths := s.fabPaths
  let t := paths.foldl (init := ([] : Tab Nat)) fun t e =>
    match e.1.id with
    | some d => if Tab.get 0 t d = 0 then Tab.set 0 t d (routeOf e.2) else t
    | none => t
  let t := match s.devId with | some me => Tab.set 0 t me (2 ^ 31) | none => t
  (s.updFab fun x => { x with routes := t }).refreshReach

/-- The device's own link state has changed (R353). -/
def State.ownChange (s : State) : State := s.floodLsa.reroute

/-! Ports (R343 to R345, R352). -/

/-- A port may leave DISABLED (R344): D6, PORT_EN, the strap's band 15 and HOLD. -/
def State.portEnabled (s : State) (i : Nat) : Bool :=
  s.rel 6 && bit s.sv.portEn i && !(s.fabPort i).hold && s.rst.raw / 16 != 15 && s.rst.refuge = 0

/-- Types that are not reserved (R350, R380). -/
def knownType (t : Nat) : Bool := (1 ≤ t && t ≤ 6) || isReq t || t == 0x18 || t == 0x21 || (0x30 ≤ t && t ≤ 0x34)

/-- Types that travel by DEST (R350). -/
def routedType (t : Nat) : Bool := knownType t && decide (t ≥ 6)

/-- A dropped REQ flit's source is told, once for each source and destination in 10 µs (R365). -/
def State.sendReach (s : State) (src d : Nat) : State :=
  let recent := s.fab.reachSent.filter fun e => decide (s.tim.now < e.2.2 + 10000)
  if recent.any fun e => e.1 == src && e.2.1 == d then s
  else
    let s := s.updFab fun x => { x with reachSent := recent ++ [(src, d, s.tim.now)] }
    let me := s.devId.getD 0
    match pickPort me src 0xC000 (s.livePorts src (2 ^ 32 - 1)) with
    | some i => s.putFlit i 32 (2 ^ 32 - 1) { type := 6, hops := 31, dest := src, src := me, flow := 0xC000, body := padTo 256 (leBytes 2 d) }
    | none => s.updFab fun x => { x with noRoute := satAdd 0xFFFF x.noRoute 1 }

/-- A flit takes the port that R360 gives it; without a route it is dropped and counted, and a REQ flit's source told (R365). -/
def State.routeFlit (s : State) (input grant : Nat) (f : Flit) : State :=
  let src := f.src % 16384
  let d := f.dest % 16384
  match pickPort src d f.flow (s.livePorts d grant) with
  | some i => s.putFlit i input grant f
  | none =>
    let s := s.updFab fun x => { x with noRoute := satAdd 0xFFFF x.noRoute 1 }
    if isReq f.type && input != 32 then s.sendReach src d else s

/-- A port takes a state other than UP: its neighbour is forgotten. Leaving UP is a loss (R349, R365): the frames of its replay buffer
not acknowledged, of which `lost` says how many there were at most, are dropped and counted, and its queued flits are sent again
by their routes, in their order. -/
def State.portTo (s : State) (i : Nat) (st : FabState) (cause : Nat) (lost : Option Nat := none) : State :=
  let x := s.fabPort i
  let n := min x.unacked.length (lost.getD x.unacked.length)
  let s := s.updFabPort i fun x => { x with
    state := st, cause := cause, width := 0, rtt := 0, rate := 0, nbrSerial := 0, nbrId := none, nbrPort := 0, hellos := 0
    echo := 0, lastTx := 0, downs := if st = .hold then satAdd 0xFFFF x.downs 1 else x.downs
    queue := [], spent := [], lastClass := 3, lastIn := [], sq := 0, unacked := [] }
  if x.state = .up then
    let s := ((s.updFab fun x => { x with link := satAdd 0xFFFF x.link n }).timLost i).ownChange
    (x.queue.filter fun w => routedType w.flit.type).foldl (fun s w => s.routeFlit w.input w.grant w.flit) s
  else s

/-- A port goes to HOLD with a cause (R344). -/
def State.portHold (s : State) (i cause : Nat) (lost : Option Nat := none) : State := s.portTo i .hold cause lost

/-- Ports that may be enabled leave DISABLED, ports that may not enter it with a cause (R344, R371). -/
def State.fabEnable (s : State) (cause : Nat) : State :=
  (List.range 32).foldl (init := s) fun s i =>
    let st := (s.fabPort i).state
    if s.portEnabled i then (if st = .disabled then s.updFabPort i fun x => { x with state := .detect } else s)
    else if st = .disabled then s else s.portTo i .disabled cause

/-- The rate of a port (R345), in GB/s. -/
def portRate (width rtt : Nat) : Nat :=
  let full := if width = 3 then 200 else 100
  if rtt = 0 then full else min full (131072 / rtt)

/-- The neighbour's link answers, with the width at which it trained (R343); 0 where neither half is whole. -/
def lanesWidth (lanes : Nat) : Nat :=
  let lo := lanes &&& 0x0F == 0x0F
  let hi := lanes &&& 0xF0 == 0xF0
  if lo && hi then 3 else if lo then 1 else if hi then 2 else 0

/-! Device IDs (R354 to R357). -/

/-- An OPEN device awaits an assignment (R356, R373). -/
def State.idWaiting (s : State) : Bool := s.rel 6 && s.sv.fabOpen && s.devId.isNone

/-- The device takes an ID. -/
def State.takeId (s : State) (source id : Nat) : State :=
  (s.updFab fun x => { x with source := source, id := id }).ownChange

/-- The ID that the applied Survey gives (R354, R371), at the release of D6 or an apply. -/
def State.fabAdopt (s : State) : State :=
  match s.sv.sec 8 with
  | none => (s.updFab fun x => { x with source := 0, id := 0 }).ownChange
  | some _ =>
    if s.sv.fabOpen then (if s.fab.source = 2 then s else (s.updFab fun x => { x with source := 0, id := 0 }).ownChange)
    else s.takeId 1 s.sv.fabId

/-- A conflict of IDs (R357): the device with the higher serial gives its ID up, with a record. -/
def State.idConflict (s : State) (other : Nat) : State :=
  let id := s.fab.id
  let s := (s.updFab fun x => { x with source := if x.source = 1 then 3 else 0, id := 0 }).ownChange
  s.reportDev 0x0012 0 0 0 (leBytes 2 id ++ leBytes 6 0 ++ leBytes 8 other) true

/-- A flooded message of a type and origin is new (R350). -/
def State.isNew (s : State) (type serial sq : Nat) : Bool :=
  serial != Config.devSerial.toNat && !s.fab.seen.any fun e => e.1 == type && e.2.1 == serial && decide (sq ≤ e.2.2)

def State.noteSeen (s : State) (type serial sq : Nat) : State :=
  s.updFab fun x => { x with seen := (x.seen.filter fun e => !(e.1 == type && e.2.1 == serial)) ++ [(type, serial, sq)] }

/-- Devices with their IDs as the topology shows them, this one included. -/
def State.heldIds (s : State) : List (Nat × Nat) :=
  (s.ownLsa :: s.fab.lsdb).filterMap fun r => r.id.map fun d => (r.serial, d)

/-- The ID that the leader gives a serial (R356): its table's, or the lowest that nobody holds; none when all are taken. -/
def State.assignId (s : State) (serial : Nat) : Option Nat :=
  match s.fab.table.find? fun e => e.1 == serial with
  | some e => some e.2
  | none =>
    let taken := s.fab.table.map (·.2) ++ s.heldIds.map (·.2)
    (List.range (min 16384 (taken.length + 1))).find? fun d => !taken.contains d

/-- The leader assigns an ID to one request, and floods it; its own it takes at once. -/
def State.assignOne (s : State) (serial : Nat) : State :=
  match s.assignId serial with
  | none => s
  | some d =>
    let s := s.updFab fun x => { x with
      table := if x.table.any (fun e => e.1 == serial) then x.table else x.table ++ [(serial, d)]
      asks := x.asks.erase serial, assignSeq := wrapAdd two32 x.assignSeq 1 }
    let me := Config.devSerial.toNat
    let s := s.flood 5 (leBytes 8 me ++ leBytes 8 serial ++ leBytes 2 d ++ leBytes 4 s.fab.assignSeq) none
    if serial = me && s.idWaiting then s.takeId 2 d else s

/-! Rows: ports. -/

def execPortHold (q port : Nat) (on : Bool) (s : State) : Host.Outcome State Fault Refusal :=
  .next (s.globalOp q 7 fun s =>
    if port ≥ 32 then s
    else (s.updFabPort port fun x => { x with hold := on }).fabEnable 0)

/-- RETRAIN (R373). -/
def execRetrain (q port : Nat) (s : State) : Host.Outcome State Fault Refusal :=
  .next (s.globalOp q 7 fun s => if s.portUp port then s.portHold port 8 else s)

def execLaneSignalDetect (port lanes : Nat) (s : State) : Host.Outcome State Fault Refusal :=
  if (s.fabPort port).state = .detect && lanesWidth lanes != 0
  then .next (s.updFabPort port fun x => { x with state := .train, cause := 0, frames := true }) else .next s

def execTrainComplete (port lanes : Nat) (s : State) : Host.Outcome State Fault Refusal :=
  let w := lanesWidth lanes
  if (s.fabPort port).state = .train && w != 0
  then .next ((s.updFabPort port fun x => { x with state := .discover, width := w }).hello port) else .next s

def execTrainTimeout (port : Nat) (s : State) : Host.Outcome State Fault Refusal :=
  if (s.fabPort port).state = .train then .next (s.portHold port 2) else .next s

def execDiscoverTimeout (port : Nat) (s : State) : Host.Outcome State Fault Refusal :=
  if (s.fabPort port).state = .discover then .next (s.portHold port 1) else .next s

/-- HOLD_TIMEOUT (R344). -/
def execHoldTimeout (port : Nat) (s : State) : Host.Outcome State Fault Refusal :=
  if (s.fabPort port).state = .hold then .next (s.updFabPort port fun x => { x with state := .detect }) else .next s

/-- LINK_LOSS (R349, R365, R374): the newest `lost` frames of the replay buffer were not acknowledged. -/
def execLinkLoss (port lost : Nat) (s : State) : Host.Outcome State Fault Refusal :=
  match (s.fabPort port).state with
  | .up | .discover | .train => .next (s.portHold port 6 (some lost))
  | _ => .next s

/-- FRAME_REPLAY (R349): nothing is lost; the replay counts. -/
def execFrameReplay (port : Nat) (s : State) : Host.Outcome State Fault Refusal :=
  match (s.fabPort port).state with
  | .up | .discover => .next (s.updFabPort port fun x => { x with replays := satAdd 0xFFFF x.replays 1 })
  | _ => .next s

/-- HELLO (R345, R351, R352): 16 exchanges bring a port UP; an exchange is a HELLO that echoes the last one sent (log entry 20). -/
def execHello (port : Nat) (m : HelloMsg) (s : State) : Host.Outcome State Fault Refusal :=
  let x := s.fabPort port
  let id := if m.valid then some (m.id % 16384) else none
  match x.state with
  | .discover =>
    if m.version != 1 || m.width != x.width then .next (s.portHold port 3)
    else if m.serial = Config.devSerial.toNat then .next (s.portHold port 4)
    else
      let hit := m.echo = x.lastTx && m.echo != 0
      let rtt := if hit then max x.rtt (modSub two64 s.clk m.echo) else x.rtt
      let n := x.hellos + b2n hit
      let s := s.updFabPort port fun y => { y with
        echo := m.tTx, hellos := n, rtt := rtt, nbrSerial := m.serial, nbrId := id, nbrPort := m.port % 32 }
      if n < 16 then .next (s.hello port)
      else if rtt > 5120 then .next (s.portHold port 5)
      else
        let s := s.updFabPort port fun y => { y with state := .up, cause := 0, rate := portRate y.width rtt }
        .next (s.hello port).ownChange
  | .up =>
    if m.serial != x.nbrSerial || m.port % 32 != x.nbrPort || (x.nbrId.isSome && id != x.nbrId) then .next (s.portHold port 6)
    else
      let s := s.updFabPort port fun y => { y with echo := m.tTx, nbrId := id }
      .next (if id != x.nbrId then s.ownChange else s)
  | _ => .next s

/-- HELLO_TIMER (R351). -/
def execHelloTimer (s : State) : Host.Outcome State Fault Refusal := .next (s.upPorts.foldl (fun s i => s.hello i) s)

/-! Rows: topology and IDs. -/

/-- LSA (R353, R357): newer than the one held, it is kept and flooded on. -/
def execLsa (port : Nat) (m : LsaMsg) (s : State) : Host.Outcome State Fault Refusal :=
  let old := s.fab.lsdb.find? fun r => r.serial == m.serial
  let me := Config.devSerial.toNat
  let stale := match old with | some r => decide (m.sq ≤ r.sq) | none => false
  if !s.portUp port || m.serial = me || stale then .next s
  else
    let r : LsaRec := { serial := m.serial, id := m.id.map (· % 16384), lead := m.leadOffer, sq := m.sq, ports := m.ports.take 32 }
    let s := s.updFab fun x => { x with lsdb := (x.lsdb.filter fun e => e.serial != m.serial) ++ [r] }
    let s := s.flood 3 (lsaBody r) (some port)
    let same := match old with | some o => o.id == r.id && o.lead == r.lead && o.ports == r.ports | none => false
    let s := if same then s else s.reroute
    .next (if s.devId.isSome && r.id == s.devId && m.serial < me then s.idConflict m.serial else s)

/-- LSA_TIMER (R353). -/
def execLsaTimer (s : State) : Host.Outcome State Fault Refusal := .next s.floodLsa

/-- LSA_EXPIRY (R353). -/
def execLsaExpiry (serial : Nat) (s : State) : Host.Outcome State Fault Refusal :=
  if s.fab.lsdb.any fun r => r.serial == serial
  then .next (s.updFab fun x => { x with lsdb := x.lsdb.filter fun r => r.serial != serial }).reroute else .next s

/-- LEADER_ELECTION (R355, R356): the lowest serial that offers; a new leader builds its table from the LSAs. -/
def execLeaderElection (s : State) : Host.Outcome State Fault Refusal :=
  if !s.rel 6 then .next s
  else
    let me := Config.devSerial.toNat
    let offers := (s.ownLsa :: s.fab.lsdb).filterMap fun r => if r.lead then some r.serial else none
    let lead := match offers with | [] => none | a :: t => some (t.foldl min a)
    let mine := lead == some me
    .next (s.updFab fun x => { x with
      leader := lead.getD 0, isLeader := mine
      table := if mine && !x.isLeader then s.heldIds else x.table, asks := if mine then x.asks else [] })

/-- ASSIGN_REQ (R356). -/
def execAssignReq (port : Nat) (m : AssignReqMsg) (s : State) : Host.Outcome State Fault Refusal :=
  if !s.portUp port || !s.isNew 4 m.serial m.sq then .next s
  else
    let s := (s.noteSeen 4 m.serial m.sq).flood 4 (leBytes 8 m.serial ++ leBytes 4 m.sq) (some port)
    .next (s.updFab fun x => if x.isLeader && !x.asks.contains m.serial then { x with asks := x.asks ++ [m.serial] } else x)

/-- ASSIGN_REQ_TIMER (R356). -/
def execAssignReqTimer (s : State) : Host.Outcome State Fault Refusal :=
  if !s.idWaiting then .next s
  else
    let me := Config.devSerial.toNat
    let s := s.updFab fun x => { x with
      reqSeq := wrapAdd two32 x.reqSeq 1, asks := if x.isLeader && !x.asks.contains me then x.asks ++ [me] else x.asks }
    .next (s.flood 4 (leBytes 8 me ++ leBytes 4 s.fab.reqSeq) none)

/-- Ascending order. -/
def insertNat (a : Nat) : List Nat → List Nat
  | [] => [a]
  | b :: t => if a ≤ b then a :: b :: t else b :: insertNat a t

def sortNat (l : List Nat) : List Nat := l.foldr insertNat []

/-- LEADER_ASSIGN_TIMER (R356). -/
def execLeaderAssignTimer (s : State) : Host.Outcome State Fault Refusal :=
  if s.fab.isLeader && s.dpt.crewUp then .next ((sortNat s.fab.asks).foldl (fun s a => s.assignOne a) s) else .next s

/-- ASSIGN (R356, R374): ignored by a target that meanwhile has an ID. -/
def execAssign (port : Nat) (m : AssignMsg) (s : State) : Host.Outcome State Fault Refusal :=
  if !s.portUp port || !s.isNew 5 m.leader m.sq then .next s
  else
    let body := leBytes 8 m.leader ++ leBytes 8 m.target ++ leBytes 2 m.id ++ leBytes 4 m.sq
    let s := (s.noteSeen 5 m.leader m.sq).flood 5 body (some port)
    .next (if m.target = Config.devSerial.toNat && s.idWaiting then s.takeId 2 (m.id % 16384) else s)

/-! Rows: reachability and transit. -/

/-- REACH (R366): d is unreachable for at least 1 ms. -/
def execReach (d : Nat) (s : State) : Host.Outcome State Fault Refusal :=
  if s.rel 6 then .next (s.updFab fun x => { x with reachHold := Tab.set false x.reachHold d true }).refreshReach else .next s

def execReachHoldExpiry (d : Nat) (s : State) : Host.Outcome State Fault Refusal :=
  if Tab.get false s.fab.reachHold d
  then .next (s.updFab fun x => { x with reachHold := Tab.set false x.reachHold d false }).refreshReach else .next s

/-- FLIT_FORWARD (R346, R347, R350, R360, R362, R364, R365). A flit for this device, or of a link's own type, is not in transit; no flit
arrives for which the neighbour can hold no credit. -/
def execFlitForward (port : Nat) (f : Flit) (s : State) : Host.Outcome State Fault Refusal :=
  if !s.portUp port || s.rxHeld port (flitClass f.type) ≥ creditGrant (flitClass f.type) then .next s
  else if !knownType f.type then .next s.badFlit
  else if !routedType f.type || s.devId == some (f.dest % 16384) then .next s
  else if f.hops = 0 then .next (s.updFab fun x => { x with ttl := satAdd 0xFFFF x.ttl 1 })
  else
    let t := s.routeFlit port (2 ^ 32 - 1) { f with hops := f.hops - 1 }
    .next (if (s.livePorts (f.dest % 16384) (2 ^ 32 - 1)).isEmpty then t else t.chargeIdle 9 1)

/-! Rows: adit requests and responses (R256, R257, R368). -/

/-- What an adit request asks for. -/
inductive AditOp where
  | rd | wr | atom
  deriving DecidableEq, Repr

/-- The check of R256 that a request fails, 1 to 5, and the window's owner; or the owner, its slot and the address served. -/
def State.aditCheck (s : State) (o : AditOp) (m : AditReq) : Nat × Nat × Nat :=
  match s.sv.inWin m.window with
  | none => (1, 0xFF, 0)
  | some w =>
    let b := Tab.get 0 (s.part w.owner).inBind m.window
    let slot := bits b 62 55
    let va := bits b 54 16 * 65536 + m.offset
    let lenBad := decide (m.len = 0 ∨ m.len > 128 ∨ m.offset % 128 + m.len > 128) ||
      (o == .atom && ((m.len != 4 && m.len != 8) || m.offset % m.len != 0))
    let aopBad := o == .atom && (decide (m.aop > 10) || (m.aop == 10 && m.len == 8))
    let perm := match o with | .rd => bit w.perm 0 | .wr => bit w.perm 1 | .atom => bit w.perm 2
    if !bit b 63 then (1, w.owner, 0)
    else if !decide (w.first ≤ m.src ∧ m.src ≤ w.last) then (2, w.owner, 0)
    else if lenBad || m.offset + m.len > w.size * 65536 then (3, w.owner, 0)
    else if !perm || aopBad then (4, w.owner, 0)
    else
      match s.xlate tlbNone w.owner slot va with
      | some { loc := .dev a, r := r, w := wr, a := at_, .. } =>
        let ok := match o with | .rd => r | .wr => wr | .atom => r && wr && at_
        if ok then (0, w.owner, a) else (5, w.owner, 0)
      | _ => (5, w.owner, 0)

/-- The response to a request (R368). It travels under the flow of the owner and the inbound window (log entry 21). -/
def State.aditRespond (s : State) (p : Nat) (m : AditReq) (status pmask : Nat) (d : List Byte) : State :=
  let body := leBytes 2 m.tag ++ leBytes 1 status ++ leBytes 1 m.len ++ leBytes 2 pmask ++ leBytes 10 0 ++ padTo 128 d
  let s := s.originate 0x18 m.src (aditFlow (p % 16) m.window) (if p < 16 then s.sv.portGrant p else 2 ^ 32 - 1) body
  if p < 16 then s.charge p 0 9 1 else s.chargeIdle 9 1

/-- Serves an inbound request: refused with an ADIT_REFUSED record, or performed under the owner's inbound-fabric class. -/
def State.aditServe (s : State) (o : AditOp) (m : AditReq) (go : Nat → Nat → State → State) : State :=
  if s.devId.isNone then s.badFlit
  else
    let (code, p, a) := s.aditCheck o m
    if code = 0 then go p a s
    else
      let s := if p < 16 then s.report p 0x0008 11 m.window m.offset (leBytes 2 m.src ++ leBytes 1 code) false else s
      s.aditRespond p m 1 0 []

/-- The mask of the first n bytes' 8-byte elements. -/
def elemMask (n : Nat) : Nat := 2 ^ ceilDiv n 8 - 1

def execAditRd (m : AditReq) (s : State) : Host.Outcome State Fault Refusal :=
  .next (s.aditServe .rd m fun p a s =>
    let s := s.homeRead (s.req p 0 3) a
    s.aditRespond p m 0 (if s.poisonAt a then elemMask m.len else 0) (s.devRead a m.len))

def execAditWr (m : AditReq) (s : State) : Host.Outcome State Fault Refusal :=
  .next (s.aditServe .wr m fun p a s =>
    let s := (s.homeWrite (s.req p 0 3) a (padTo m.len m.data) (m.pmask &&& elemMask m.len != 0)).semCheck
    s.aditRespond p m 0 0 [])

/-- ADIT_ATOM (R117, R256): in a poisoned line it writes nothing and answers a poisoned value. -/
def execAditAtom (m : AditReq) (s : State) : Host.Outcome State Fault Refusal :=
  .next (s.aditServe .atom m fun p a s =>
    let s := s.homeRead (s.req p 0 3) a
    let old := leVal (s.devRead a m.len)
    if s.poisonAt a then s.aditRespond p m 0 (elemMask m.len) (leBytes m.len old)
    else
      let n := 8 * m.len
      let v := aop m.aop n old (leAt m.data 0 m.len) (leAt m.data m.len m.len)
      let s := (s.homeWrite (s.req p 0 3) a (leBytes m.len v)).semCheck
      s.aditRespond p m 0 0 (leBytes m.len old))

/-- ADIT_RSP (R368): STATUS 0 is OK. -/
def execAditRsp (m : AditRsp) (s : State) : Host.Outcome State Fault Refusal :=
  if s.devId.isNone then .next s.badFlit else .next (s.tagAnswer m.tag (m.status == 0) m.data m.pmask)

end Sys2Proof.Machine
end

