-- ==== Sys2Proof/Machine/Float.lean ====
section
/-!
DEFINITION. The floating-point ALU class (R519) and the conversion class (R520).
-/

namespace Sys2Proof.Machine

/-- A + B (R519). -/
def semFadd (c : Ctx) : State → Issue := aluSem { types := [0], rm := 1 } (fun _ a b _ => fadd c.rm a b) c

/-- A − B (R519). -/
def semFsub (c : Ctx) : State → Issue := aluSem { types := [0], rm := 1 } (fun _ a b _ => fsub c.rm a b) c

/-- A × B (R519). -/
def semFmul (c : Ctx) : State → Issue := aluSem { types := [0], rm := 1 } (fun _ a b _ => fmul c.rm a b) c

/-- A × B + C, rounded once (R519). -/
def semFfma (c : Ctx) : State → Issue := aluSem { c := 2, types := [0], rm := 1 } (fun _ a b d => ffma c.rm a b d) c

/-- A ÷ B (R519). -/
def semFdiv (c : Ctx) : State → Issue := aluSem { types := [0], rm := 1 } (fun _ a b _ => fdiv c.rm a b) c

/-- √A (R519). -/
def semFsqrt (c : Ctx) : State → Issue := aluSem { b := 0, types := [0], rm := 1 } (fun _ a _ _ => fsqrt c.rm a) c

/-- minimum (R519). -/
def semFmin (c : Ctx) : State → Issue := aluSem { types := [0] } (fun _ a b _ => fmin a b) c

/-- maximum (R519). -/
def semFmax (c : Ctx) : State → Issue := aluSem { types := [0] } (fun _ a b _ => fmax a b) c

/-- the sign cleared (R519). -/
def semFabs (c : Ctx) : State → Issue := aluSem { b := 0, types := [0] } (fun _ a _ _ => fabs a) c

/-- the sign inverted (R519). -/
def semFneg (c : Ctx) : State → Issue := aluSem { b := 0, types := [0] } (fun _ a _ _ => fneg a) c

/-- 1 ÷ A (R519). -/
def semFrcpApprox (c : Ctx) : State → Issue := aluSem { b := 0, types := [0] } (fun _ a _ _ => fapprox 0 a) c

/-- 1 ÷ √A (R519). -/
def semFrsqApprox (c : Ctx) : State → Issue := aluSem { b := 0, types := [0] } (fun _ a _ _ => fapprox 1 a) c

/-- 2 to the power A (R519). -/
def semFex2Approx (c : Ctx) : State → Issue := aluSem { b := 0, types := [0] } (fun _ a _ _ => fapprox 2 a) c

/-- log₂ A (R519). -/
def semFlg2Approx (c : Ctx) : State → Issue := aluSem { b := 0, types := [0] } (fun _ a _ _ => fapprox 3 a) c

/-- sin A (R519). -/
def semFsinApprox (c : Ctx) : State → Issue := aluSem { b := 0, types := [0] } (fun _ a _ _ => fapprox 4 a) c

/-- cos A (R519). -/
def semFcosApprox (c : Ctx) : State → Issue := aluSem { b := 0, types := [0] } (fun _ a _ _ => fapprox 5 a) c

/-- tanh A (R519). -/
def semFtanhApprox (c : Ctx) : State → Issue := aluSem { b := 0, types := [0] } (fun _ a _ _ => fapprox 6 a) c

/-- FCMP.EQ (R519). -/
def semFcmpEq : Ctx → State → Issue := predSem { types := [0], d := 0 } fun _ _ a b => fcmp 0 a b

/-- FCMP.NE (R519). -/
def semFcmpNe : Ctx → State → Issue := predSem { types := [0], d := 0 } fun _ _ a b => fcmp 1 a b

/-- FCMP.LT (R519). -/
def semFcmpLt : Ctx → State → Issue := predSem { types := [0], d := 0 } fun _ _ a b => fcmp 2 a b

/-- FCMP.LE (R519). -/
def semFcmpLe : Ctx → State → Issue := predSem { types := [0], d := 0 } fun _ _ a b => fcmp 3 a b

/-- FCMP.GT (R519). -/
def semFcmpGt : Ctx → State → Issue := predSem { types := [0], d := 0 } fun _ _ a b => fcmp 4 a b

/-- FCMP.GE (R519). -/
def semFcmpGe : Ctx → State → Issue := predSem { types := [0], d := 0 } fun _ _ a b => fcmp 5 a b

/-- FCMP.UNORD (R519). -/
def semFcmpUnord : Ctx → State → Issue := predSem { types := [0], d := 0 } fun _ _ a b => fcmp 6 a b

/-- FCMP.ORD (R519). -/
def semFcmpOrd : Ctx → State → Issue := predSem { types := [0], d := 0 } fun _ _ a b => fcmp 7 a b

/-- A conversion (R520): only A is used; under RM 2 each active lane's generator advances, and its word rounds (R166). -/
def cvtSem (types : List Nat) (f : Nat → Nat → Nat → Nat → Nat) (c : Ctx) (s : State) : Issue :=
  let sp : RSpec := { b := 0, types := types, rm := 2 }
  let d : Opd := { kind := b2n (bit c.w 5), idx := c.f 49 42, n := 1 }
  match c.check (c.rBad sp 1) (c.srcs sp 1) [d] with
  | some i => i
  | none => c.done s fun x =>
      let x := if c.rm = 2 then c.lanes.foldl (fun x l => x.updLane l fun y => { y with rng := lfsr32 y.rng }) x else x
      x.setDst c.lanes d fun l => f c.ty c.rm (x.lane l).rng ((c.srcA 2 1).val c l)

/-- CVT.TO (R520). -/
def semCvtTo : Ctx → State → Issue := cvtSem [1, 2, 3, 4, 5, 6, 7, 8, 9] cvtTo

/-- CVT.FROM (R520). -/
def semCvtFrom : Ctx → State → Issue := cvtSem [1, 2, 3, 4, 5, 6, 7, 8, 9] cvtFrom

end Sys2Proof.Machine
end

