-- ==== Sys2Proof/Machine/Integer.lean ====
section
/-!
DEFINITION. The integer ALU class (R109, R518).
-/

namespace Sys2Proof.Machine

/-- One source. -/
def one : RSpec := { b := 0 }

/-- A + B (R518). -/
def semIadd : Ctx → State → Issue := aluSem {} (fun n a b _ => iadd n a b)

/-- A − B (R518). -/
def semIsub : Ctx → State → Issue := aluSem {} (fun n a b _ => isub n a b)

/-- low half of A × B (R518). -/
def semImul : Ctx → State → Issue := aluSem {} (fun n a b _ => imul n a b)

/-- high half of the unsigned product (R518). -/
def semImulhiU : Ctx → State → Issue := aluSem {} (fun n a b _ => imulhiU n a b)

/-- high half of the signed product (R518). -/
def semImulhiS : Ctx → State → Issue := aluSem {} (fun n a b _ => imulhiS n a b)

/-- low half of A × B + C (R518). -/
def semImad : Ctx → State → Issue := aluSem { c := 2 } (fun n a b c => imad n a b c)

/-- unsigned quotient (R518). -/
def semIdivU : Ctx → State → Issue := aluSem {} (fun n a b _ => idivU n a b)

/-- signed quotient (R518). -/
def semIdivS : Ctx → State → Issue := aluSem {} (fun n a b _ => idivS n a b)

/-- unsigned remainder (R518). -/
def semIremU : Ctx → State → Issue := aluSem {} (fun _ a b _ => iremU a b)

/-- signed remainder (R518). -/
def semIremS : Ctx → State → Issue := aluSem {} (fun n a b _ => iremS n a b)

/-- unsigned minimum (R518). -/
def semIminU : Ctx → State → Issue := aluSem {} (fun _ a b _ => min a b)

/-- signed minimum (R518). -/
def semIminS : Ctx → State → Issue := aluSem {} (fun n a b _ => iminS n a b)

/-- unsigned maximum (R518). -/
def semImaxU : Ctx → State → Issue := aluSem {} (fun _ a b _ => max a b)

/-- signed maximum (R518). -/
def semImaxS : Ctx → State → Issue := aluSem {} (fun n a b _ => imaxS n a b)

/-- absolute value (R518). -/
def semIabs : Ctx → State → Issue := aluSem one (fun n a _ _ => iabs n a)

/-- −A (R518). -/
def semIneg : Ctx → State → Issue := aluSem one (fun n a _ _ => ineg n a)

/-- A AND B (R518). -/
def semAnd : Ctx → State → Issue := aluSem {} (fun _ a b _ => a &&& b)

/-- A OR B (R518). -/
def semOr : Ctx → State → Issue := aluSem {} (fun _ a b _ => a ||| b)

/-- A XOR B (R518). -/
def semXor : Ctx → State → Issue := aluSem {} (fun _ a b _ => a ^^^ b)

/-- every bit of A inverted (R518). -/
def semNot : Ctx → State → Issue := aluSem one (fun n a _ _ => inot n a)

/-- left shift by B[31:0] (R518). -/
def semShl : Ctx → State → Issue := aluSem { b := 1 } (fun n a b _ => ishl n a b)

/-- right shift, zero fill (R518). -/
def semShr : Ctx → State → Issue := aluSem { b := 1 } (fun n a b _ => ishr n a b)

/-- right shift, sign fill (R518). -/
def semSar : Ctx → State → Issue := aluSem { b := 1 } (fun n a b _ => isar n a b)

/-- number of set bits (R518). -/
def semPopc : Ctx → State → Issue := aluSem { b := 0, d := 1 } (fun n a _ _ => popc n a)

/-- leading zero bits (R518). -/
def semClz : Ctx → State → Issue := aluSem { b := 0, d := 1 } (fun n a _ _ => clz n a)

/-- bits in reverse order (R518). -/
def semBrev : Ctx → State → Issue := aluSem one (fun n a _ _ => brev n a)

/-- A (R518). -/
def semMov : Ctx → State → Issue := aluSem one (fun _ a _ _ => a)

/-- SHFL (R518): A is a vector register, read in lane B[4:0] whatever that lane's state; a poisoned one raises POISON. -/
def semShfl (c : Ctx) (s : State) : Issue :=
  let sp : RSpec := { kinds := [0] }
  let n := c.wide
  let d : Opd := { kind := b2n (bit c.w 5), idx := c.f 49 42, n := n }
  let a := c.srcA 2 n
  let b := c.srcB 2 n
  let from_ := fun l => b.val c l % 32
  match { c with act := 0 }.check (c.rBad sp n) [a, b] [d] with
  | some i => i
  | none =>
    if [b, d].any (Opd.awaited c) || (c.lanes.any fun l => a.awaited { c with act := 2 ^ from_ l }) then .stall
    else
      match c.lanes.findSome? fun l => (b.poison c l).or (a.poison c (from_ l)) with
      | some (i, m) => .trap 0x09 (extra16 i (m - 1))
      | none => c.done s fun x => x.setDst c.lanes d fun l => a.val c (from_ l)

/-- LANEID (R518). -/
def semLaneid (c : Ctx) (s : State) : Issue :=
  let sp : RSpec := { a := 0, b := 0, types := [0], d := 1 }
  let d : Opd := { kind := b2n (bit c.w 5), idx := c.f 49 42, n := 1 }
  match c.check (c.rBad sp 1) [] [d] with
  | some i => i
  | none => c.done s fun x => x.setDst c.lanes d fun l => l

/-- MDESC.SET (R518): the lowest active lane's value into m0 to m7. -/
def semMdescSet (c : Ctx) (s : State) : Issue :=
  let sp : RSpec := { b := 0, kinds := [1, 2], types := [1], d := 0 }
  match c.check (c.rBad sp 2) (c.srcs sp 2) [] with
  | some i => i
  | none =>
    match c.lanes with
    | [] => c.done s id
    | l :: _ => c.done s fun x => { x with mdesc := Tab.set 0 x.mdesc (c.f 44 42) (BitVec.ofNat 64 ((c.srcA 2 2).val c l)) }

/-- A field that names one of eight registers: bits above [2:0] and the kind zero (R518). -/
def Ctx.eightBad (c : Ctx) : Bool := c.f 41 37 != 0 || c.f 17 16 != 0

/-- MDESC.GET (R518). -/
def semMdescGet (c : Ctx) (s : State) : Issue :=
  let sp : RSpec := { b := 0, kinds := [0], types := [1] }
  let d : Opd := { kind := b2n (bit c.w 5), idx := c.f 49 42, n := 2 }
  match c.check (c.rBad sp 2 || c.eightBad) [] [d] with
  | some i => i
  | none => c.done s fun x => x.setDst c.lanes d fun _ => (Tab.get 0 x.mdesc (c.f 36 34)).toNat

/-- PRD (R518). -/
def semPrd (c : Ctx) (s : State) : Issue :=
  let sp : RSpec := { b := 0, kinds := [0], types := [0], d := 1 }
  let d : Opd := { kind := b2n (bit c.w 5), idx := c.f 49 42, n := 1 }
  match c.check (c.rBad sp 1 || c.eightBad) [] [d] with
  | some i => i
  | none => c.done s fun x => x.setDst c.lanes d fun _ => (Tab.get 0 x.preds (c.f 36 34)).toNat

/-- PWR (R518): each active lane n writes bit n of its A. -/
def semPwr : Ctx → State → Issue := predSem { b := 0, types := [0], d := 0 } fun _ l a _ => bit a l

/-- A = B into the predicate (R518). -/
def semIcmpEq : Ctx → State → Issue := predSem { d := 0 } (fun _ _ a b => a == b)

/-- A ≠ B into the predicate (R518). -/
def semIcmpNe : Ctx → State → Issue := predSem { d := 0 } (fun _ _ a b => a != b)

/-- A < B unsigned into the predicate (R518). -/
def semIcmpLtU : Ctx → State → Issue := predSem { d := 0 } (fun _ _ a b => decide (a < b))

/-- A ≥ B unsigned into the predicate (R518). -/
def semIcmpGeU : Ctx → State → Issue := predSem { d := 0 } (fun _ _ a b => decide (a ≥ b))

/-- A < B signed into the predicate (R518). -/
def semIcmpLtS : Ctx → State → Issue := predSem { d := 0 } (fun n _ a b => decide (sgn n a < sgn n b))

/-- A ≥ B signed into the predicate (R518). -/
def semIcmpGeS : Ctx → State → Issue := predSem { d := 0 } (fun n _ a b => decide (sgn n a ≥ sgn n b))

end Sys2Proof.Machine
end

