-- ==== Sys2Proof/Machine/Matrix.lean ====
section
/-!
DEFINITION. The matrix class and the arrays (R129 to R157, R168 to R173).
-/

namespace Sys2Proof.Machine

/-! Descriptors (R129, R130, R140). -/

/-- A matrix descriptor's fields. -/
structure MDesc where
  fmtS : Nat
  fmtW : Nat
  rows : Nat
  cols : Nat
  mode : Nat
  array : Nat
  quarter : Nat
  acc : Bool
  k : Nat
  waddr : Nat
  deriving DecidableEq, Repr

def mdesc (v : Nat) : MDesc :=
  { fmtS := bits v 63 60, fmtW := bits v 59 56, rows := bits v 55 51, cols := bits v 50 46, mode := bits v 45 44,
    array := bits v 43 42, quarter := bits v 41 40, acc := bit v 39, k := bits v 38 21, waddr := bits v 20 0 }

/-- The format pairs of R130. -/
def pairOk (a b : Nat) : Bool :=
  (a == b && (a == 1 || a == 2 || a == 8)) || (decide (3 ≤ a ∧ a ≤ 7) && decide (3 ≤ b ∧ b ≤ 7))

/-- A descriptor that breaks R129 or R130, or names what the split does not give the gang (R140). -/
def MDesc.bad (d : MDesc) (split sub : Nat) : Bool :=
  !pairOk d.fmtS d.fmtW || d.waddr % 16 != 0 ||
  (match d.mode with
   | 0 => d.quarter != 0 || bit split d.array
   | 1 => decide (d.rows > 15) || decide (d.cols > 15) || !bit split d.array || sub != d.array
   | _ => true)

/-- The array or quarter that a descriptor names. -/
def MDesc.unit (d : MDesc) : Nat := d.array * 4 + if d.mode = 1 then d.quarter else 0

/-- Element width of a format code in bits. -/
def fmtBits (f : Nat) : Nat := match f with | 1 => 16 | 2 => 16 | 5 => 6 | 6 => 6 | 7 => 4 | _ => 8

/-- Registers of a fragment (R131). -/
def fragRegs (frag fmt mode : Nat) : Nat :=
  if frag = 1 then (if mode = 0 then 32 else 8)
  else if mode = 0 then fmtBits fmt
  else match fmtBits fmt with | 16 => 4 | _ => 2

/-- A register's bits in use: the unused bits of a 16 × 16 FP6 or FP4 fragment are zero (R131). -/
def fragMask (frag fmt mode i v : Nat) : Nat :=
  if frag = 0 ∧ mode = 1 ∧ i = 1 then (match fmtBits fmt with | 6 => v % 65536 | 4 => 0 | _ => v) else v

/-! Common checks. -/

/-- The instruction acts for all 32 lanes (R131). -/
def Ctx.whole (c : Ctx) : Ctx := { c with act := 2 ^ 32 - 1 }
def Ctx.md (c : Ctx) : Nat := c.f 33 31
def Ctx.mdv (c : Ctx) : Nat := (Tab.get 0#64 c.x.mdesc c.md).toNat
def Ctx.desc (c : Ctx) : MDesc := mdesc c.mdv

/-- Format T's fields other than those in use are zero, and no guard (R100, R107). -/
def Ctx.tBad (c : Ctx) (use : Nat) : Bool := c.guarded || (c.f 49 0 &&& (2 ^ 50 - 1 - use)) != 0
def fV : Nat := 0xFF * 2 ^ 42
def fMD : Nat := 7 * 2 ^ 31
def fFRAG : Nat := 7 * 2 ^ 28
def fOFF : Nat := 2 ^ 21 - 1

/-- Faults of a matrix instruction in the order of R108, up to the source registers. -/
def Ctx.mCheck (c : Ctx) (bad : Bool) (srcs dsts : List Opd) : Option Issue :=
  if c.guardBad || bad then some c.illegal
  else if c.desc.bad c.x.k.split (c.g / 16 % 4) then some (.trap 0x0D (extra16 c.md c.mdv))
  else c.whole.check false srcs dsts

/-- The registers of a fragment at V. -/
def Ctx.frag (c : Ctx) (n : Nat) : List Opd := (List.range n).map fun i => { kind := 0, idx := c.f 49 42 + i, n := 1 }

/-- V is even (R106). -/
def Ctx.oddV (c : Ctx) : Bool := c.f 42 42 != 0

def Core.unit (y : Core) (u : Nat) : MUnit := Tab.get {} y.units u
def State.updUnit (s : State) (c u : Nat) (f : MUnit → MUnit) : State :=
  s.updCore c fun y => { y with units := Tab.upd {} y.units u f }

/-- n bytes at workspace address a lie in the launch's window (R74). -/
def Kernel.inWs (k : Kernel) (a n : Nat) : Bool := decide (k.wsBase ≤ a ∧ a + n ≤ k.wsBase + k.wsSize)

/-! MFRAG.LOAD and MFRAG.STORE (R132, R145). -/

/-- A buffered store of the gang overlaps the bytes, or one of its lanes holds its memory instructions. -/
def Ctx.fragWait (c : Ctx) (s : State) (a n : Nat) : Bool :=
  (c.x.holdLd ||| c.x.holdSt) != 0 || c.x.pend.any (fun p => p.kind == .acquire || p.kind == .sem) ||
  (s.entriesOf c.g).any fun e => match e.loc with
    | .ws _ b => decide (b < a + n ∧ a < b + e.size)
    | _ => false

/-- The place in the image of register i of lane l (R145). -/
def fragAt (i l : Nat) : Nat := (i / 4 * 32 + l) * 16 + i % 4 * 4

/-- A fragment access: the checks of R132, then the effect at the image's address with the fragment's register count. -/
def fragSem (load : Bool) (eff : Ctx → State → Nat → Nat → State) (c : Ctx) (s : State) : Issue :=
  let d := c.desc
  let fr := c.f 30 28
  let n := fragRegs fr d.fmtS d.mode
  let base : Opd := { kind := 1, idx := c.f 41 34, n := 1 }
  let regs := c.frag n
  let bad := c.hasExt || c.tBad (fV + fA + fMD + fFRAG + fOFF) || decide (fr > 1) || c.oddV || base.bad
  match c.mCheck bad (if load then [] else regs) (if load then regs else []) with
  | some i => i
  | none =>
    let a := (base.val c 0 + c.f 20 0) % two32
    let size := ceilDiv n 4 * 512
    if a % 16 != 0 then .trap 0x04 (extra16 a 0)
    else if !c.x.k.inWs a size then .trap 0x05 (extra16 a 0)
    else if c.fragWait s a size then .stall
    else .ok ((eff c s a n).charge c.x.k.part c.x.k.tally 5 (ceilDiv n 4 * 32)) [] false

/-- MFRAG.LOAD (R132). -/
def semMfragLoad : Ctx → State → Issue := fragSem true fun c s a n =>
  let co := coreOf c.g
  let d := c.desc
  s.updGang c.g fun x => (List.range 32).foldl (init := x) fun x l => (List.range n).foldl (init := x) fun x i =>
    let b := a + fragAt i l
    x.setReg (c.f 49 42 + i) 1 l (fragMask (c.f 30 28) d.fmtS d.mode i (leVal (s.wsRead co b 4)))
      (if s.wsPoison co b 4 then b + 1 else 0)

/-- MFRAG.STORE (R132): image bytes beyond the registers are written as zero. -/
def semMfragStore : Ctx → State → Issue := fragSem false fun c s a n =>
  let d := c.desc
  (List.range 32).foldl (init := s) fun s l => (List.range (ceilDiv n 4)).foldl (init := s) fun s q =>
    s.wsWrite (coreOf c.g) (a + fragAt (4 * q) l) ((List.range 4).flatMap fun j =>
      let i := 4 * q + j
      leBytes 4 (if i < n then
        fragMask (c.f 30 28) d.fmtS d.mode i (Tab.get 0#32 c.x.regs ((c.f 49 42 + i) * 32 + l)).toNat else 0))

/-! MMA.STAT, MMA.RUN, MMA.DRAIN. -/

/-- A tile from the registers at V (R142, R143): a lane's elements lie one after the other in its registers. -/
def Ctx.tile (c : Ctx) : Tile :=
  let d := c.desc
  let w := fmtBits d.fmtS
  let n := fragRegs 0 d.fmtS d.mode
  let cols := if d.mode = 0 then 32 else 16
  let per := if d.mode = 0 then 32 else 8
  { fmt := d.fmtS
    elems := (List.range 32).foldl (init := []) fun t l =>
      let v := (List.range n).foldl (fun a i => a + (Tab.get 0#32 c.x.regs ((c.f 49 42 + i) * 32 + l)).toNat * 2 ^ (32 * i)) 0
      (List.range per).foldl (init := t) fun t i =>
        Tab.set 0 t ((l / cols * 8 + i) * 32 + l % cols) (bits v (w * i + w - 1) (w * i)) }

/-- The accumulator slot and column of register j of lane l (R144). -/
def accAt (mode l j : Nat) : Nat := if mode = 0 then j * 32 + l else (l / 16 * 8 + j) * 32 + l % 16

/-- The shadows hold a tile whose swap has not begun (R133, R148). -/
def MUnit.shadowHeld (u : MUnit) (clk : Nat) : Bool :=
  u.shadow.isSome && (match u.claimed with | some e => decide (clk < e) | none => true)

/-- MMA.STAT (R133, R148, R149). -/
def semMmaStat (c : Ctx) (s : State) : Issue :=
  let d := c.desc
  let fr := c.f 30 28
  let n := fragRegs fr d.fmtS d.mode
  let regs := c.frag n
  let bad := c.hasExt || c.tBad (fV + fMD + fFRAG) || decide (fr > 1) || c.oddV
  match c.mCheck bad (if fr = 0 then regs else []) (if fr = 0 then [] else regs) with
  | some i => i
  | none =>
    let co := coreOf c.g
    let u := (s.core co).unit d.unit
    if fr = 0 then
      if u.shadowHeld s.clk then .hold
      else .ok (s.updUnit co d.unit fun u => { u with shadow := some c.tile, claimed := none }) [] false
    else if !u.runs.isEmpty then .hold
    else
      .ok (s.updUnit co d.unit fun u => (List.range 32).foldl (init := u) fun u l => (List.range n).foldl (init := u) fun u j =>
        let r := (c.f 49 42 + j) * 32 + l
        { u with
          acc := Tab.set 0 u.acc (accAt d.mode l j) (Tab.get 0 c.x.regs r)
          accPoison := Tab.set false u.accPoison (accAt d.mode l j) (Tab.get 0 c.x.marks r != 0) }) [] false

/-- Bytes of a weight vector (R146). -/
def vecBytes (fmt mode : Nat) : Nat := fmtBits fmt * (if mode = 0 then 4 else 2)

/-- Scale bytes of a vector (R146). -/
def scaleBytes (scale mode : Nat) : Nat := if scale = 0 then 0 else if scale = 2 ∧ mode = 0 then 2 else 1

/-- A run's streaming counter (R441) and its vectors per cycle (R139). -/
def runRate (fmtS fmtW : Nat) : Nat × Nat :=
  if fmtW ≤ 2 then (1, 1) else if fmtW = 8 then (2, 2) else if fmtS = 7 ∧ fmtW = 7 then (4, 4) else (3, 2)

/-- The cycle in which the first vector of a run issued now enters row 0 (R152). -/
def MUnit.entry (u : MUnit) (clk : Nat) : Nat := max (clk + 12) (u.lastIn + 1)

/-- A run joins the queue of an array (R134, R147): its tile is the shadow's when a new one waits there, which begins to swap in when
the run's first vector enters row 0 (R148). -/
def MUnit.queue (u : MUnit) (clk : Nat) (mk : Tile → Bool → Nat → MRun) : MUnit :=
  let r0 := mk u.active false (u.entry clk)
  let swaps := decide (r0.count > 0) && u.shadow.isSome && u.claimed.isNone
  let cur := if swaps then u.shadow.getD u.active else u.active
  let e := u.entry clk
  { u with
    active := cur, tag := if swaps then !u.tag else u.tag, claimed := if swaps then some e else u.claimed
    runs := u.runs ++ [mk cur swaps e]
    lastIn := if r0.count = 0 then u.lastIn else e + (r0.count - 1) / (runRate r0.fmtS r0.fmtW).2 }

/-- MMA.RUN (R134, R147): the run's operands are taken and it is queued. A stream that leaves the window is named by its first address
(DESIGN CHOICE, log entry 106: R521 says only that the record holds the address). -/
def semMmaRun (c : Ctx) (s : State) : Issue :=
  let d := c.desc
  let need := decide (3 ≤ d.fmtW ∧ d.fmtW ≤ 7)
  let sc := bits c.ext 42 41
  let ts := bits c.ext 40 35
  let sa := bits c.ext 63 43
  let bad := c.tBad fMD || c.hasExt != need ||
    (c.hasExt && (sa % 16 != 0 || sc == 3 || (sc != 2 && ts != 0) || bits c.ext 34 0 != 0))
  match c.mCheck bad [] [] with
  | some i => i
  | none =>
    let sc := if c.hasExt then sc else 0
    let k := c.x.k
    let wn := d.k * vecBytes d.fmtW d.mode
    let sn := d.k * scaleBytes sc d.mode
    if wn != 0 && !k.inWs d.waddr wn then .trap 0x05 (extra16 d.waddr 0)
    else if sn != 0 && !k.inWs sa sn then .trap 0x05 (extra16 sa 0)
    else
      let co := coreOf c.g
      if ((s.core co).unit d.unit).runs.length ≥ 4 then .hold
      else
        let mk := fun (tile : Tile) (swaps : Bool) (first : Nat) => ({
          gang := c.g, part := k.part, tally := k.tally, mode := d.mode, fmtS := d.fmtS, fmtW := d.fmtW, rows := d.rows,
          cols := d.cols, acc := d.acc, count := d.k, waddr := d.waddr, saddr := sa, scale := sc,
          tscale := Tab.get 0 c.x.uregs ts, tile := tile, swaps := swaps, first := first } : MRun)
        .ok (s.updUnit co d.unit fun u => u.queue s.clk mk) [] false

/-- MMA.DRAIN (R135). While it waits it has not issued, so it waits for the runs that other gangs issue meanwhile too (DESIGN CHOICE,
log entry 107). -/
def semMmaDrain (c : Ctx) (s : State) : Issue :=
  let d := c.desc
  let n := fragRegs 1 d.fmtS d.mode
  match c.mCheck (c.hasExt || c.tBad (fV + fMD) || c.oddV) [] (c.frag n) with
  | some i => i
  | none =>
    let u := (s.core (coreOf c.g)).unit d.unit
    if !u.runs.isEmpty then .hold
    else c.done s fun x => (List.range 32).foldl (init := x) fun x l => (List.range n).foldl (init := x) fun x j =>
      x.setReg (c.f 49 42 + j) 1 l (Tab.get 0 u.acc (accAt d.mode l j)).toNat
        (if Tab.get false u.accPoison (accAt d.mode l j) then 1 else 0)

/-! The arithmetic of a column (R168 to R173). -/

/-- Element r of the vector whose bytes are given. -/
def vecElem (v w r : Nat) : Nat := bits v (w * r + w - 1) (w * r)

/-- The integer-format value of an element. -/
def elemVal (fmt c : Nat) : FVal := (fmtOf fmt).decode c

/-- The exact sum of products over rows lo to hi − 1 (R169, R171). -/
def exactSum (fs fw : Nat) (st : Nat → Nat) (wt : Nat → Nat) (lo hi : Nat) : FVal :=
  ((List.range (hi - lo)).map (lo + ·)).foldl (init := .fin false 0 0) fun a r =>
    addVal a (mulVal (elemVal fs (st r)) (elemVal fw (wt r)))

/-- A value rounded to FP32, whose zero is +0 (R168). -/
def drained (v : FVal) : Nat := let c := fp32.ofVal 0 0 v; if c = 2 ^ 31 then 0 else c

/-- d of one vector in one column (R169, R171 to R173); `n` rows are active. -/
def columnSum (r : MRun) (mode : Nat) (st wt : Nat → Nat) (s0 s1 : Nat) : Nat :=
  let n := r.rows + 1
  if r.fmtW = 8 then
    let a : Int := (List.range n).foldl (fun a i => a + sgn 8 (st i) * sgn 8 (wt i)) 0
    fp32.encode 0 0 (decide (a < 0)) a.natAbs 0
  else if r.fmtW ≤ 2 then
    -- no path delivers -0, whatever the last addition's rounding gives (R168)
    let d := (List.range n).foldl (init := 0) fun a i =>
      fp32.ofVal 0 0 (addVal (mulVal (elemVal r.fmtW (st i)) (elemVal r.fmtW (wt i))) (fval a))
    if d = 2 ^ 31 then 0 else d
  else
    let e4 := fun c => (fmtOf 3).decode c
    match r.scale with
    | 1 =>
      if s0 = 0xFF then fp32.nan
      else drained (mulVal (.fin false 1 ((s0 : Int) - 127)) (exactSum r.fmtS r.fmtW st wt 0 n))
    | 2 =>
      let t := fval r.tscale.toNat
      if mode = 0 then
        let h0 := mulVal (e4 s0) (exactSum r.fmtS r.fmtW st wt 0 (min n 16))
        let h1 := if n > 16 then mulVal (e4 s1) (exactSum r.fmtS r.fmtW st wt 16 n) else .fin false 0 0
        drained (mulVal t (addVal h0 h1))
      else drained (mulVal t (mulVal (e4 s0) (exactSum r.fmtS r.fmtW st wt 0 n)))
    | _ => drained (exactSum r.fmtS r.fmtW st wt 0 n)

/-- Every active slot becomes zero and unmarked (R150). -/
def MUnit.zero (u : MUnit) (slots cols : Nat) : MUnit :=
  let out := fun (i : Nat) => decide (i % 32 < cols ∧ i / 32 < slots)
  { u with acc := Tab.clear out u.acc, accPoison := Tab.clear out u.accPoison }

/-- Adds d to a slot (R168), and marks it when the vector was poisoned (R156). -/
def MUnit.add (u : MUnit) (i d : Nat) (poison : Bool) : MUnit :=
  { u with
    acc := Tab.upd 0 u.acc i fun v => BitVec.ofNat 32 (fadd 0 v.toNat d)
    accPoison := if poison then Tab.set false u.accPoison i true else u.accPoison }

/-- One vector of a run: every active column's slot takes its d. A tile loaded under another format than the run's has no
stated value: each slot it reaches takes a value that the part gives for the slot's old bits, the modes and the inputs (R174; log
entry 12). -/
def State.runVector (s : State) (co u mode : Nat) (r : MRun) (v : Nat) : State :=
  let w := fmtBits r.fmtW
  let e := vecBytes r.fmtW mode
  let n := scaleBytes r.scale mode
  let wa := r.waddr + v * e
  let sa := r.saddr + v * n
  let vec := leVal (s.wsRead co wa e)
  let used := if n = 2 ∧ r.rows < 16 then 1 else n
  let poison := s.wsPoison co wa (ceilDiv (w * (r.rows + 1)) 8) || s.wsPoison co sa used
  let slot := v % (if mode = 0 then 32 else 16)
  (List.range (r.cols + 1)).foldl (init := s) fun s c =>
    let i := slot * 32 + c
    if r.tile.fmt != 0 && r.tile.fmt != r.fmtS then
      let col := (List.range 32).map fun k => Tab.get 0 r.tile.elems (k * 32 + c)
      let modes := [r.tile.fmt, r.fmtS, r.fmtW, mode, r.rows, r.scale, r.tscale.toNat]
      s.updUnit co u fun x => { x with
        acc := Tab.upd 0 x.acc i fun v => Config.mixedSlot (v.toNat :: vec :: leVal (s.wsRead co sa n) :: modes ++ col)
        accPoison := if poison then Tab.set false x.accPoison i true else x.accPoison }
    else
      let d := columnSum r mode (fun k => Tab.get 0 r.tile.elems (k * 32 + c)) (vecElem vec w)
        (leVal (s.wsRead co sa 1)) (leVal (s.wsRead co (sa + 1) 1))
      s.updUnit co u fun x => x.add i d poison

/-- A run leaves the queue; the tile that it brought has swapped in. -/
def MUnit.retire (u : MUnit) (r : MRun) (rest : List MRun) : MUnit :=
  let u := { u with runs := rest }
  if r.swaps && u.claimed == some r.first then { u with shadow := none, claimed := none } else u

/-- MMA_RUN_COMPLETE (R150 to R152): the oldest run of an array or quarter lands in its slots. The stream's bytes
are all read here, so that every store written before is seen as new (DESIGN CHOICE, log entry 99: R134 and R157 leave old or new
open until the run completes). After a trip no vector enters the array (R511). -/
def execMmaRunComplete (core u : Nat) (s : State) : Host.Outcome State Fault Refusal :=
  match ((s.core core).unit u).runs with
  | [] => .next s
  | r :: rest =>
    if s.rst.tripped then .next s else
    let slots := if r.mode = 0 then 32 else 16
    let s := if r.acc then s else s.updUnit core u fun x => x.zero slots (r.cols + 1)
    let s := (List.range r.count).foldl (fun s v => s.runVector core u r.mode r v) s
    let s := s.updUnit core u fun x => x.retire r rest
    let q := runRate r.fmtS r.fmtW
    let s := (s.charge r.part r.tally q.1 (ceilDiv r.count q.2)).charge r.part r.tally 5
      (ceilDiv (r.count * (vecBytes r.fmtW r.mode + scaleBytes r.scale r.mode)) 16)
    .next s

end Sys2Proof.Machine
end

