-- ==== Sys2Proof/Machine/MemSem.lean ====
section
/-!
DEFINITION. What memory instructions of gangs do at their issue (R104, R105, R107, R111 to R120): loads, stores, atomics, acquires,
releases and semaphores, the L1 (R78, R79), store buffers (R180).
-/

namespace Sys2Proof.Machine

/-- How an access through a control leaf reads and writes registers (R517): partition, BAR, offset, bytes, value. -/
structure RegIo where
  read : State → Nat → Bool → Nat → Nat → Nat × State
  write : State → Nat → Bool → Nat → Nat → Nat → State

/-- An access that only asks whether an instruction is ready: what registers answer plays no part in that. -/
def RegIo.none : RegIo := { read := fun s _ _ _ _ => (0, s), write := fun s _ _ _ _ _ => s }

/-! Places. -/

/-- The space and the address of a place, for overlaps. -/
def Loc.key : Loc → Option (Nat × Nat)
  | .ws c a => some (0, wsKey c a)
  | .dev a => some (1, a)
  | .l2s p a => some (2, l2sKey p a)
  | .host i a _ => some (3 + i, a)
  | .adit _ _ d f o => some (8 + d * 256 + f, o)
  | _ => none

/-- n bytes at one place and m at another have a byte in common. -/
def Loc.overlaps (x : Loc) (n : Nat) (y : Loc) (m : Nat) : Bool :=
  match x.key, y.key with
  | some (i, a), some (j, b) => i == j && decide (a < b + m) && decide (b < a + n)
  | _, _ => false

/-! Fields. -/

/-- SPACE, and the number of bytes that SIZE names (R104, R105). -/
def Ctx.space (c : Ctx) : Nat := c.f 32 30
def Ctx.size (c : Ctx) : Nat := 2 ^ c.f 29 27

/-- Spaces with 64-bit addresses that are translated or windowed. -/
def wideSpace (sp : Nat) : Bool := sp == 1 || sp == 3 || sp == 4

/-- The address operand. -/
def Ctx.base (c : Ctx) : Opd := { kind := c.f 33 33, idx := c.f 41 34, n := if wideSpace c.space then 2 else 1 }

/-- The signed offset of format M. -/
def Ctx.offset (c : Ctx) : Int := if c.hasExt then sgn 64 c.ext else sgn 24 (c.f 23 0)

/-- A lane's address (R111). -/
def Ctx.addr (c : Ctx) (off : Int) (l : Nat) : Nat :=
  twos (if wideSpace c.space then 64 else 32) ((c.base.val c l : Nat) + off)

/-- What a memory instruction does: its permission, and whether it is one that a Device-type page refuses (R111, R245). -/
inductive MemUse where
  | load
  | store
  | both
  deriving DecidableEq, Repr

/-- The trap that a lane's address meets (R108, R111), as its rank and code, or the place it names. -/
def State.laneTarget (s : State) (c : Ctx) (u : MemUse) (order : Bool) (a : Nat) : Except (Nat × Nat) Loc :=
  let k := c.x.k
  let n := c.size
  if a % n != 0 then .error (0, 0x04)
  else
    match c.space with
    | 0 => if k.inWs a n then .ok (.ws (coreOf c.g) a) else .error (1, 0x05)
    | 2 => if a + n ≤ k.l2sSize then .ok (.l2s k.part a) else .error (2, 0x06)
    | 4 =>
      match s.aditAt k.part a with
      | none => .error (3, 0x07)
      | some (w, x) =>
        let b := match u with | .load => 0 | .store => 1 | .both => 2
        if s.aditPerm w x b then .ok (.adit k.part w (bits x.target 29 16) (bits x.target 15 8) (a - x.base)) else .error (5, 0x08)
    | sp =>
      match s.xlate (tlbCore (coreOf c.g)) k.part k.slot a with
      | none => .error (3, 0x07)
      | some x =>
        let perm := match u with | .load => x.r | .store => x.w | .both => x.r && x.w && x.a
        match x.loc with
        | .ctrl _ _ =>
          if order || n = 16 then .error (4, 0x0A) else if sp = 1 && perm then .ok x.loc else .error (5, 0x08)
        | .dev _ => if sp = 1 && perm then .ok x.loc else .error (5, 0x08)
        | .host _ _ _ => if sp = 3 && perm && u != .both then .ok x.loc else .error (5, 0x08)
        | _ => .error (5, 0x08)

/-- The lanes with their addresses and places, or the trap of the first cause in the order of R108, in the lowest lane that
meets it. -/
def State.targets (s : State) (c : Ctx) (u : MemUse) (order : Bool) (off : Int) : Except Issue (List (Nat × Nat × Loc)) :=
  let all := c.lanes.map fun l => (l, c.addr off l, s.laneTarget c u order (c.addr off l))
  let bad := fun (r : Nat) => all.findSome? fun e => match e.2.2 with | .error (q, code) => if q = r then some (code, e.2.1) else none | .ok _ => none
  match (List.range 6).findSome? bad with
  | some (code, a) => .error (.trap code (extra16 a 0))
  | none => .ok (all.filterMap fun e => match e.2.2 with | .ok l => some (e.1, e.2.1, l) | .error _ => none)

/-- An active lane's memory instructions wait for a fence or an acquire (R119, R121). -/
def Ctx.heldUp (c : Ctx) : Bool :=
  (c.x.holdLd ||| c.x.holdSt) &&& c.act != 0 ||
  c.x.pend.any fun p => p.kind == .acquire && p.lanes.any fun l => bit c.act l.lane

/-- The buffered stores of a lane, in order. -/
def State.stores (s : State) (g l : Nat) : List StEntry := (s.entriesOf g).filter fun e => e.lane == l

/-- An access of the lane through a control leaf must wait for its buffered stores (R184). -/
def State.ctrlWaits (s : State) (g : Nat) (ts : List (Nat × Nat × Loc)) : Bool :=
  ts.any fun e => match e.2.2 with | .ctrl _ _ => !(s.stores g e.1).isEmpty | _ => false

/-! The L1 (R78, R79). -/

def Core.l1Line (y : Core) (line : Nat) : Option L1Line := y.l1.find? fun x => x.line == line

/-- The line that holds the sector of an address. -/
def Core.l1Hit (y : Core) (a : Nat) : Option L1Line := (y.l1Line (paLine a)).filter fun x => bit x.valid (a % 128 / 32)

/-- The sector of an address is filled from its home; of 1,024 lines the oldest leaves for a new one. -/
def State.l1Fill (s : State) (core a : Nat) : State :=
  let k := a % 128 / 32
  let d := s.devRead (paLine a * 128 + 32 * k) 32
  let bad := if s.poisonAt a then 2 ^ k else 0
  let put := fun (x : L1Line) => { x with
    data := x.data.take (32 * k) ++ d ++ x.data.drop (32 * k + 32), valid := x.valid ||| 2 ^ k, bad := x.bad ||| bad }
  s.updCore core fun y => { y with l1 := match y.l1Line (paLine a) with
    | some _ => y.l1.map fun x => if x.line = paLine a then put x else x
    | none => (if y.l1.length ≥ 1024 then y.l1.drop 1 else y.l1) ++
        [put { line := paLine a, data := List.replicate 128 0#8, valid := 0, bad := 0 }] }

/-- A store updates the line that the core's L1 holds, when it reaches its home: no other thread of the core sees it before every agent may
(R78, R189; log entry 103). -/
def State.l1Store (s : State) (core a : Nat) (d : List Byte) : State :=
  let put := fun (x : L1Line) =>
    if x.line = paLine a then { x with data := x.data.take (a % 128) ++ d ++ x.data.drop (a % 128 + d.length) } else x
  s.updCore core fun y => { y with l1 := y.l1.map put }

/-- An atomic or a semaphore release invalidates the line at its issue; a release does so again when it is performed, so that its thread
reads nothing older (R181). -/
def State.l1Drop (s : State) (core a : Nat) : State :=
  s.updCore core fun y => { y with l1 := y.l1.filter fun x => x.line != paLine a }

/-! Loads (R112, R181, R182). -/

/-- What the thread's buffered stores give a load: nothing of it, all of it, or a part, for which it waits (R181). -/
inductive Forward where
  | none
  | all (d : List Byte)
  | part
  deriving DecidableEq, Repr

/-- The byte of the newest buffered store that covers a place; a semaphore release holds no byte yet. -/
def forwardByte (es : List StEntry) (l : Loc) (i : Nat) : Option (Option Byte) :=
  match l.key with
  | Option.none => Option.none
  | some (sp, a) =>
    es.reverse.findSome? fun e =>
      match e.loc.key with
      | some (sq, b) =>
        if sp = sq && b ≤ a + i && a + i < b + e.size then
          some (if e.kind = .semRelease then Option.none else some (BitVec.ofNat 8 (e.data / 2 ^ (8 * (a + i - b)))))
        else Option.none
      | Option.none => Option.none

def forward (es : List StEntry) (l : Loc) (n : Nat) : Forward :=
  let bs := (List.range n).map (forwardByte es l)
  if bs.all Option.isNone then .none
  else if bs.all fun b => match b with | some (some _) => true | _ => false then
    .all (bs.filterMap fun b => match b with | some (some x) => some x | _ => Option.none)
  else .part

/-- How a load reads: whether it is served by the L1, and allocates in it. -/
structure LoadMode where
  l1 : Bool
  alloc : Bool

/-- Reads device memory for a load: data and poison. -/
def State.devLoad (s : State) (core : Nat) (r : Req) (m : LoadMode) (a n : Nat) : Nat × Bool × State :=
  match if m.l1 then (s.core core).l1Hit a else none with
  | some x => (leVal (slice x.data (a % 128) n), bit x.bad (a % 128 / 32), s)
  | none =>
    let s := s.homeRead r a
    (leVal (s.devRead a n), s.poisonAt a, if m.l1 && m.alloc then s.l1Fill core a else s)

/-- One lane of a load: none when its path must wait (R181, R368). -/
def State.loadLane (io : RegIo) (s : State) (c : Ctx) (m : LoadMode) (id : Nat) (t : Nat × Nat × Loc) : Option (LaneLoad × State) :=
  let k := c.x.k
  let n := c.size
  let r := s.req k.part k.tally 0
  let (l, va, loc) := t
  let out := fun (ready : Bool) (v : Nat) (bad : Bool) (s : State) =>
    some (({ lane := l, addr := va, loc := loc, ready := ready, data := v, poison := if bad then some va else none } : LaneLoad), s)
  match forward (s.stores c.g l) loc n with
  | .part => none
  | .all d => out true (leVal d) false s
  | .none =>
    match loc with
    | .ws co a => out true (leVal (s.wsRead co a n)) (s.wsPoison co a n) s
    | .l2s p a =>
      let s := s.scratchMeet p a n
      out true (leVal (s.l2sRead p a n)) (s.l2sPoison p a n) (s.charge k.part k.tally 6 1)
    | .dev a =>
      let inL1 := m.l1 && ((s.core (coreOf c.g)).l1Hit a).isSome
      if !inL1 && s.lineHeld a then none else
      let (v, bad, s) := s.devLoad (coreOf c.g) r m a n
      out true v bad (s.cacheLeaf (tlbCore (coreOf c.g)) k.part k.slot va)
    | .host i a _ =>
      match s.hostAsk k.part i a n (.load c.g id l) with
      | some s => out false 0 false ((s.charge k.part k.tally 10 (ceilDiv n 64)).cacheLeaf (tlbCore (coreOf c.g)) k.part k.slot va)
      | none => out true 0 true s
    | .adit p w dev far off =>
      if !s.reachable dev then out true 0 true s
      else (s.aditSend p k.tally 0x10 w dev far off n 0 0 [] (.load c.g id l)).bind fun e => out false 0 false e.2
    | .ctrl b off =>
      let (v, s) := io.read s k.part b off n
      out true v false (s.cacheLeaf (tlbCore (coreOf c.g)) k.part k.slot va)
    | .lost => out true 0 true s

/-- The lanes of a load, ascending. -/
def State.loadLanes (io : RegIo) (c : Ctx) (m : LoadMode) (id : Nat) : List (Nat × Nat × Loc) → State → Option (List LaneLoad × State)
  | [], s => some ([], s)
  | t :: ts, s =>
    match s.loadLane io c m id t with
    | none => none
    | some (x, s) => (State.loadLanes io c m id ts s).map fun e => (x :: e.1, e.2)

/-- The epoch stamp of an access to a translated space (R252). -/
def State.stampFor (s : State) (c : Ctx) : Option Nat := if wideSpace c.space then some (s.part c.x.k.part).epoch else none

/-- Workspace words of 16 bytes that the lanes touch (R75, R441). -/
def State.wsWords (s : State) (c : Ctx) (ts : List (Nat × Nat × Loc)) : State :=
  if c.space = 0 && !ts.isEmpty then s.charge c.x.k.part c.x.k.tally 5 (ts.map fun e => e.2.1 / 16).eraseDups.length else s

/-- The gang has a load more in flight. -/
def State.addLoad (s : State) (c : Ctx) (p : PendLoad) : State :=
  if (s.gang c.g).live then s.updGang c.g fun x => { x with pend := x.pend ++ [p] } else s

/-- The data registers of a load or a store. -/
def Ctx.dataOpd (c : Ctx) : Opd := { kind := 0, idx := c.f 49 42, n := (c.size + 3) / 4 }

/-- The field faults of LD, and of LD.ACQUIRE (R104, R107, R119). -/
def Ctx.loadBad (c : Ctx) (acq : Bool) : Bool :=
  let sp := c.space
  let sz := c.f 29 27
  let hint := c.f 25 24
  let sx := bit c.w 26
  decide (sp > 4) || decide (sz > 4) || (acq && sz != 2 && sz != 3) || (sx && (acq || decide (sz > 1))) ||
    decide (hint > 1) || (hint == 1 && (acq || sp != 1)) || (c.hasExt && c.f 23 0 != 0)

/-- LD and LD.ACQUIRE (R112, R114, R119). -/
def loadSem (io : RegIo) (acq : Bool) (c : Ctx) (s : State) : Issue :=
  let sp := c.space
  let hint := c.f 25 24
  let sx := bit c.w 26
  let d := c.dataOpd
  match c.check (c.loadBad acq) [c.base] [d] with
  | some i => i
  | none =>
    if c.heldUp then .stall
    else
      match s.targets c .load acq c.offset with
      | .error i => i
      | .ok ts =>
        if ts.isEmpty then .ok s [] false
        else if s.ctrlWaits c.g ts then .stall
        else
          let id := s.uid
          let m : LoadMode := { l1 := !acq, alloc := hint == 0 }
          let core := coreOf c.g
          let s := if acq && sp != 0 then s.clearL1 core else s
          match State.loadLanes io c m id ts { s with uid := id + 1 } with
          | none => .stall
          | some (ls, s) =>
            let s := s.wsWords c ts
            let va := (ts.headD (0, 0, .lost)).2.1
            -- the stream detectors watch device memory, not registers (R232)
            let mem := match (ts.headD (0, 0, .lost)).2.2 with | .dev _ => true | _ => false
            let s := if mem && !acq then s.train (tlbCore core) (s.req c.x.k.part c.x.k.tally 0) c.x.k.stream c.x.k.slot va else s
            let p : PendLoad := {
              id := id, kind := if acq then .acquire else .plain, dst := d.idx, size := c.size, sx := sx
              lanes := ls, vals := [], stamp := s.stampFor c, devScope := sp != 0 }
            .ok (s.addLoad c p) [] false

/-! Stores (R113, R180). -/

/-- Store-buffer entries for the lanes that do not go through a control leaf. -/
def State.storeEntries (s : State) (c : Ctx) (kind : StKind) (val : Nat → Nat) (ts : List (Nat × Nat × Loc)) : List StEntry :=
  ts.filterMap fun e =>
    match e.2.2 with
    | .ctrl _ _ => none
    | loc => some { gang := c.g, lane := e.1, addr := e.2.1, loc := loc, size := c.size, data := val e.1 % 2 ^ (8 * c.size),
                    kind := kind, stamp := s.stampFor c, tag := none }

/-- Entries of a sub-core's buffer that have not left it (R180). -/
def State.held (s : State) (b : Nat) : Nat := ((s.sub b).filter fun e => e.tag.isNone).length

/-- The lanes' entries join the store buffer, and their Device-type accesses are performed; a full buffer makes the path wait. -/
def State.putStores (io : RegIo) (s : State) (c : Ctx) (kind : StKind) (val : Nat → Nat) (ts : List (Nat × Nat × Loc)) : Issue :=
  let b := subOf c.g
  let es := s.storeEntries c kind val ts
  if s.held b + es.length > 32 || s.ctrlWaits c.g ts then .stall
  else
    let k := c.x.k
    let core := coreOf c.g
    let s := s.setSub b (s.sub b ++ es)
    .ok (ts.foldl (init := s) fun s e =>
      match e.2.2 with
      | .ctrl bar4 off => (io.write s k.part bar4 off c.size (val e.1)).cacheLeaf (tlbCore (coreOf c.g)) k.part k.slot e.2.1
      | .dev a =>
        let s := s.cacheLeaf (tlbCore (coreOf c.g)) k.part k.slot e.2.1
        if kind = .semRelease then s.l1Drop core a else s
      | .host _ _ _ => s.cacheLeaf (tlbCore (coreOf c.g)) k.part k.slot e.2.1
      | _ => s) [] false

/-- The field faults of ST, and of ST.RELEASE (R104, R107, R119). -/
def Ctx.storeBad (c : Ctx) (rel : Bool) : Bool :=
  let sz := c.f 29 27
  decide (c.space > 4) || decide (sz > 4) || (rel && sz != 2 && sz != 3) || c.f 26 24 != 0 || (c.hasExt && c.f 23 0 != 0)

/-- ST and ST.RELEASE (R113, R119). -/
def storeSem (io : RegIo) (rel : Bool) (c : Ctx) (s : State) : Issue :=
  let d := c.dataOpd
  match c.check (c.storeBad rel) [c.base, d] [] with
  | some i => i
  | none =>
    if c.heldUp then .stall
    else
      match s.targets c .store rel c.offset with
      | .error i => i
      | .ok ts => s.putStores io c (if rel then .release else .plain) (fun l => d.val c l) ts

/-! Atomics and semaphores (R115 to R120). -/

/-- The pair, or register, B or C of format X. -/
def Ctx.xOpd (c : Ctx) (hi lo : Nat) : Opd := { kind := c.f 6 6, idx := c.f hi lo, n := if c.size = 8 then 2 else 1 }

/-- One lane of an atomic: none when its path must wait. -/
def State.atomLane (s : State) (c : Ctx) (id : Nat) (t : Nat × Nat × Loc) : Option (LaneLoad × State) :=
  let k := c.x.k
  let n := c.size
  let op := c.f 26 23
  let r := s.req k.part k.tally 0
  let (l, va, loc) := t
  let b := (c.xOpd 22 15).val c l
  let cc := (c.xOpd 14 7).val c l
  let new := fun (old : Nat) => leBytes n (aop op (8 * n) old b cc)
  let out := fun (ready : Bool) (v : Nat) (bad : Bool) (s : State) =>
    some (({ lane := l, addr := va, loc := loc, ready := ready, data := v, poison := if bad then some va else none } : LaneLoad), s)
  if (s.stores c.g l).any fun e => e.loc.overlaps e.size loc n then none
  else
    match loc with
    | .ws co a =>
      let old := leVal (s.wsRead co a n)
      if s.wsPoison co a n then out true old true s else out true old false (s.wsWrite co a (new old))
    | .l2s p a =>
      let s := s.scratchMeet p a n
      let old := leVal (s.l2sRead p a n)
      let s := s.charge k.part k.tally 6 1
      if s.l2sPoison p a n then out true old true s else out true old false (s.l2sWrite p a (new old))
    | .dev a =>
      if s.lineHeld a then none else
      let s := ((s.l1Drop (coreOf c.g) a).homeRead r a).cacheLeaf (tlbCore (coreOf c.g)) k.part k.slot va
      let old := leVal (s.devRead a n)
      if s.poisonAt a then out true old true s else out true old false (s.homeWrite r a (new old))
    | .adit p w dev far off =>
      if !s.reachable dev then out true 0 true s
      else (s.aditSend p k.tally 0x12 w dev far off n op 0 (leBytes n b ++ leBytes n (if op = 9 then cc else 0)) (.load c.g id l)).bind
        fun e => out false 0 false e.2
    | _ => out true 0 true s

def State.atomLanes (c : Ctx) (id : Nat) : List (Nat × Nat × Loc) → State → Option (List LaneLoad × State)
  | [], s => some ([], s)
  | t :: ts, s =>
    match s.atomLane c id t with
    | none => none
    | some (x, s) => (State.atomLanes c id ts s).map fun e => (x :: e.1, e.2)

/-- The field faults of ATOM (R105, R107, R115, R117). -/
def Ctx.atomBad (c : Ctx) : Bool :=
  let sp := c.space
  let sz := c.f 29 27
  let op := c.f 26 23
  c.hasExt || decide (sp > 4) || sp == 3 || (sz != 2 && sz != 3) || decide (op > 10) || (op == 10 && sz == 3) ||
    (op != 9 && c.f 14 7 != 0) || c.f 5 0 != 0

/-- The sources of ATOM: CAS alone uses C (R117). -/
def Ctx.atomSrcs (c : Ctx) : List Opd := [c.base, c.xOpd 22 15] ++ if c.f 26 23 = 9 then [c.xOpd 14 7] else []

/-- ATOM (R115 to R118). -/
def semAtom (c : Ctx) (s : State) : Issue :=
  let d : Opd := { kind := 0, idx := c.f 49 42, n := if c.f 29 27 = 3 then 2 else 1 }
  match c.check c.atomBad c.atomSrcs [d] with
  | some i => i
  | none =>
    if c.heldUp then .stall
    else
      match s.targets c .both true 0 with
      | .error i => i
      | .ok ts =>
        if ts.isEmpty then .ok s [] false
        else
          let id := s.uid
          match State.atomLanes c id ts { s with uid := id + 1 } with
          | none => .stall
          | some (ls, s) =>
            let p : PendLoad := {
              id := id, kind := .atom, dst := d.idx, size := c.size, sx := false
              lanes := ls, vals := [], stamp := s.stampFor c, devScope := false }
            .ok ((s.wsWords c ts).semCheck.addLoad c p) [] false

/-- The fields of a semaphore instruction (R120). -/
def Ctx.semBad (c : Ctx) : Bool :=
  c.hasExt || (c.space != 1 && c.space != 2) || c.f 29 27 != 3 || c.f 49 42 != 0 || c.f 26 23 != 0 || c.f 14 7 != 0 || c.f 5 0 != 0

/-- SEM.RELEASE (R120). -/
def semSemRelease (io : RegIo) (c : Ctx) (s : State) : Issue :=
  let b := c.xOpd 22 15
  match c.check c.semBad [c.base, b] [] with
  | some i => i
  | none =>
    if c.heldUp then .stall
    else
      match s.targets c .both true 0 with
      | .error i => i
      | .ok ts => s.putStores io c .semRelease (fun l => b.val c l) ts

/-- SEM.ACQUIRE (R120): the active lanes wait; their words are checked at once. -/
def semSemAcquire (c : Ctx) (s : State) : Issue :=
  let b := c.xOpd 22 15
  match c.check c.semBad [c.base, b] [] with
  | some i => i
  | none =>
    if c.heldUp then .stall
    else
      match s.targets c .both true 0 with
      | .error i => i
      | .ok ts =>
        if ts.isEmpty then .ok s [] false
        else if ts.any fun e => match e.2.2 with | .dev a => s.lineHeld a | _ => false then .stall
        else
          let k := c.x.k
          let id := s.uid
          let s := ts.foldl (init := { s with uid := id + 1 }) fun s e =>
            match e.2.2 with
            | .dev a => (s.homeRead (s.req k.part k.tally 0) a).cacheLeaf (tlbCore (coreOf c.g)) k.part k.slot e.2.1
            | _ => s.charge k.part k.tally 6 1
          let s := (s.clearL1 (coreOf c.g)).updGang c.g fun x =>
            c.lanes.foldl (fun x l => x.updLane l fun y => { y with wait := .sem }) x
          .ok (s.addLoad c {
            id := id, kind := .sem, dst := 0, size := 8, sx := false
            lanes := ts.map fun e => { lane := e.1, addr := e.2.1, loc := e.2.2, ready := false, data := 0, poison := none }
            vals := ts.map fun e => b.val c e.1, stamp := s.stampFor c, devScope := true }) [] true

end Sys2Proof.Machine
end

