-- ==== Sys2Proof/Machine/Issue.lean ====
section
/-!
DEFINITION. Issue (R63 to R68): the fetch of an instruction (R108, R245), the meaning of its opcode (R101), which paths are ready, which
path of which gang issues next, and the one operation `issue` through which every gang instruction runs, with the rows of every class
but memory.
-/

namespace Sys2Proof.Machine

/-! The instruction cache and the fetch. -/

def Core.icLine (y : Core) (line : Nat) : Option ICLine := y.icache.find? fun x => x.line == line

/-- A line joins the instruction cache; of 512 lines the oldest leaves (log entry 105). -/
def Core.icPut (y : Core) (l : ICLine) : Core :=
  { y with icache := (if y.icache.length ≥ 512 then y.icache.drop 1 else y.icache) ++ [l] }

/-- What a fetch comes to: it waits for its channel (R223), traps, or gives the word, with the state in which the line is held. -/
inductive Fetch where
  | wait
  | trap (code : Nat) (extra : List Byte) (s : State)
  | word (v : Nat) (s : State)

/-- A word of a line that the instruction cache holds; a poisoned line traps (R108, R521). -/
def ICLine.give (l : ICLine) (va a : Nat) (s : State) : Fetch :=
  if l.bad then .trap 0x09 (extra16 0xFF va) s else .word (leVal (slice l.data (a % 128) 8)) s

/-- The fetch of 8 bytes by a gang (R108, R245): no present translation, one that is no seam leaf with X, or the word, from the core's
instruction cache or from its home. -/
def State.fetchWord (s : State) (g va : Nat) : Fetch :=
  let k := (s.gang g).k
  match s.xlate (tlbCore (coreOf g)) k.part k.slot va with
  | none => .trap 0x07 (extra16 va 0) s
  | some { loc := .dev a, x := true, .. } =>
    match (s.core (coreOf g)).icLine (paLine a) with
    | some l => l.give va a (s.cacheLeaf (tlbCore (coreOf g)) k.part k.slot va)
    | none =>
      if s.lineHeld a then .wait
      else
        let s := (s.homeRead (s.req k.part k.tally 0) a).cacheLeaf (tlbCore (coreOf g)) k.part k.slot va
        let l : ICLine := { line := paLine a, data := s.devRead (paLine a * 128) 128, bad := s.poisonAt a }
        l.give va a (s.updCore (coreOf g) fun y => y.icPut l)
  | some _ => .trap 0x08 (extra16 va 0) s

/-- The fetched words of a path's next instruction: the instruction word, and the extension word when EXT is 1. -/
inductive Fetched where
  | wait
  | trap (code : Nat) (extra : List Byte) (s : State)
  | words (w x : Nat) (s : State)

/-- The program counter of a path. -/
def Gang.pcOf (x : Gang) (path : Nat) : Nat := (x.lane ((setBits 32 path).headD 0)).pc

/-- The fetch of a path's next instruction, word by word. -/
def State.fetch (s : State) (g path : Nat) : Fetched :=
  let pc := (s.gang g).pcOf path
  match s.fetchWord g pc with
  | .wait => .wait
  | .trap c e s => .trap c e s
  | .word w s =>
    if !bit w 63 then .words w 0 s
    else
      match s.fetchWord g ((pc + 8) % two64) with
      | .wait => .wait
      | .trap c e s => .trap c e s
      | .word x s => .words w x s

/-- The issue of a word by a path (R100): the gang as it is, the path's program counter, and the lanes whose guard holds. -/
def State.ctx (s : State) (g w x path : Nat) : Ctx :=
  let y := s.gang g
  let p := (Tab.get 0 y.preds (bits w 60 58)).toNat
  let p := if bit w 61 then 2 ^ 32 - 1 - p else p
  { g := g, x := y, w := w, ext := x, path := path, act := if bit w 62 then path &&& p else path, pc := y.pcOf path }

/-! The meanings. -/

/-- The meaning of an opcode (R101). -/
def semOf (io : RegIo) (op : Nat) : Ctx → State → Issue :=
  match op with
  | 0x00 => semIadd
  | 0x01 => semIsub
  | 0x02 => semImul
  | 0x03 => semImulhiU
  | 0x04 => semImulhiS
  | 0x05 => semImad
  | 0x06 => semIdivU
  | 0x07 => semIdivS
  | 0x08 => semIremU
  | 0x09 => semIremS
  | 0x0A => semIminU
  | 0x0B => semIminS
  | 0x0C => semImaxU
  | 0x0D => semImaxS
  | 0x0E => semIabs
  | 0x0F => semIneg
  | 0x10 => semAnd
  | 0x11 => semOr
  | 0x12 => semXor
  | 0x13 => semNot
  | 0x14 => semShl
  | 0x15 => semShr
  | 0x16 => semSar
  | 0x17 => semPopc
  | 0x18 => semClz
  | 0x19 => semBrev
  | 0x1A => semMov
  | 0x1B => semShfl
  | 0x1C => semLaneid
  | 0x1D => semMdescSet
  | 0x1E => semMdescGet
  | 0x1F => semPrd
  | 0x20 => semPwr
  | 0x21 => semIcmpEq
  | 0x22 => semIcmpNe
  | 0x23 => semIcmpLtU
  | 0x24 => semIcmpGeU
  | 0x25 => semIcmpLtS
  | 0x26 => semIcmpGeS
  | 0x30 => semFadd
  | 0x31 => semFsub
  | 0x32 => semFmul
  | 0x33 => semFfma
  | 0x34 => semFdiv
  | 0x35 => semFsqrt
  | 0x36 => semFmin
  | 0x37 => semFmax
  | 0x38 => semFabs
  | 0x39 => semFneg
  | 0x3A => semFrcpApprox
  | 0x3B => semFrsqApprox
  | 0x3C => semFex2Approx
  | 0x3D => semFlg2Approx
  | 0x3E => semFsinApprox
  | 0x3F => semFcosApprox
  | 0x40 => semFtanhApprox
  | 0x41 => semFcmpEq
  | 0x42 => semFcmpNe
  | 0x43 => semFcmpLt
  | 0x44 => semFcmpLe
  | 0x45 => semFcmpGt
  | 0x46 => semFcmpGe
  | 0x47 => semFcmpUnord
  | 0x48 => semFcmpOrd
  | 0x50 => semCvtTo
  | 0x51 => semCvtFrom
  | 0x60 => semBra
  | 0x61 => semBrx
  | 0x62 => semCall
  | 0x63 => semCallx
  | 0x64 => semRet
  | 0x65 => semExit
  | 0x66 => semYield
  | 0x67 => semTrap
  | 0x68 => semBrk
  | 0x70 => loadSem io false
  | 0x71 => storeSem io false
  | 0x72 => semAtom
  | 0x73 => loadSem io true
  | 0x74 => storeSem io true
  | 0x75 => semSemAcquire
  | 0x76 => semSemRelease io
  | 0x80 => semFence
  | 0x81 => semBarGang
  | 0x82 => semBarNamed
  | 0x88 => semCv false false
  | 0x89 => semCv true false
  | 0x8A => semCv false true
  | 0x8B => semCv true true
  | 0x90 => semMfragLoad
  | 0x91 => semMfragStore
  | 0x92 => semMmaStat
  | 0x93 => semMmaRun
  | 0x94 => semMmaDrain
  | 0xA0 => semTimeRd
  | 0xA1 => semGstRd
  | 0xA2 => semGstClr
  | _ => semIllegal

/-! Which path of which gang issues. -/

/-- What the next instruction of a path comes to now. -/
def State.outcome (s : State) (g path : Nat) : Issue :=
  match s.fetch g path with
  | .wait => .stall
  | .trap c e _ => .trap c e
  | .words w x s => semOf RegIo.none (bits w 57 50) (s.ctx g w x path) s

/-- How ready a path is (R64): its next instruction, traps included, may issue; it makes its whole gang wait (R133 to R135); or neither.
An operand is available once the instruction that writes it has issued, but for a load's (DESIGN CHOICE, log entry 108). -/
inductive Ready where
  | yes
  | holds
  | no
  deriving DecidableEq, Repr

def State.pathReady (s : State) (g path : Nat) : Ready :=
  match s.outcome g path with
  | .stall => .no
  | .hold => .holds
  | .trap _ _ => .yes
  | .ok _ _ _ => .yes

/-- The lanes of the gang's paths that are ready in one of some ways. -/
def State.lanesBy (s : State) (g : Nat) (f : Ready → Bool) : List Nat :=
  let m := ((s.gang g).paths.filter fun p => f (s.pathReady g p)).foldl (· ||| ·) 0
  setBits 32 m

/-- The ready lanes of a gang (R64). -/
def State.readyLanes (s : State) (g : Nat) : List Nat := s.lanesBy g (· == .yes)

/-- The path for which the whole gang waits, if any (R133 to R135): it keeps that place until it issues. -/
def State.holder? (s : State) (g : Nat) : Option Nat :=
  let x := s.gang g
  match (setBits 32 x.mWait).find? x.runnable with
  | some l => some (x.pathOf l)
  | none =>
    match x.choose (s.lanesBy g (· != .no)) with
    | some p => if s.pathReady g p = .holds then some p else none
    | none => none

/-- The path for which the gang issues now: the scheduler's choice, or that of a step (R64 to R67, R92). -/
def State.turn (s : State) (g : Nat) : Option Nat :=
  let x := s.gang g
  let when_ := fun (p : Nat) => if s.pathReady g p = .yes then some p else none
  match x.mode with
  | .running =>
    match s.holder? g with
    | some p => when_ p
    | none => x.choose (s.readyLanes g)
  | .stepping => if x.stepPath = 0 then none else when_ x.stepPath
  | _ => none

/-- A gang that may issue at all: live, with no trap, on a core that issues. -/
def State.alive (s : State) (g : Nat) : Bool := (s.gang g).live && (s.gang g).trap.isNone && s.issueOn g

/-- The gang is the one that its sub-core issues from (R63): no ready gang issued less recently, and none that issued equally long ago
stands in a lower slot. -/
def State.first (s : State) (g : Nat) : Bool :=
  ((List.range 16).map (subOf g * 16 + ·)).all fun h =>
    h == g || !s.alive h ||
    !(decide ((s.gang h).issuedAt < (s.gang g).issuedAt) || ((s.gang h).issuedAt == (s.gang g).issuedAt && decide (h < g))) ||
    (s.turn h).isNone

/-! Issue. -/

/-- The count of R65: 1 more when the path shares a thread with the one that issued before, else 1. -/
def Gang.count (x : Gang) (path : Nat) : Nat := if x.last &&& path != 0 then x.consec + 1 else 1

/-- The scheduler's bookkeeping of an issue (R65, R66): jumps and next addresses, ages of the ready lanes that did not issue, the count,
the switch point. -/
def Gang.advance (x : Gang) (c : Ctx) (ready : List Nat) (jumps : List (Nat × Nat)) (sw : Bool) (at_ : Nat) : Gang :=
  let next := (c.pc + if c.hasExt then 16 else 8) % two64
  let n := x.count c.path
  let x := (setBits 32 c.path).foldl (init := x) fun x l =>
    x.updLane l fun y => { y with age := 0, pc := ((jumps.find? (·.1 == l)).map (·.2)).getD next }
  let x := (ready.filter fun l => !bit c.path l).foldl (init := x) fun x l => x.updLane l fun y => { y with age := y.age + 1 }
  let back := jumps.any fun j => decide (j.2 ≤ c.pc)
  let pcs := ((setBits 32 c.path).map fun l => (x.lane l).pc).eraseDups
  { x with last := c.path, consec := n, issuedAt := at_, mWait := 0, stepPath := 0
           switch := sw || decide (pcs.length > 1) || decide (n ≥ 64) || (back && decide (n ≥ 16)) }

/-- The place of the next issue among those of a gang's sub-core (R63). -/
def State.nextIssue (s : State) (g : Nat) : Nat :=
  ((List.range 16).foldl (fun m i => max m (s.gang (subOf g * 16 + i)).issuedAt) 0) + 1

/-- Completes an issue: a path that is not ready issues nothing, a switch point (R65); a trap is recorded and the gang issues nothing
more (R81); otherwise the effect, with the ring's instruction count (R315) and the issue slot charged (R441). `ready`: the lanes that
were ready. -/
def finish (c : Ctx) (ready : List Nat) (s : State) : Issue → State
  | .stall => s.updGang c.g fun x => { x with switch := true }
  | .hold => s.updGang c.g fun x => { x with switch := true, mWait := c.path }
  | .trap code ex => s.updGang c.g fun x => { x with trap := some { code := code, pc := c.pc, mask := c.path, extra := ex } }
  | .ok s' jumps sw =>
    let k := c.x.k
    let s' := s'.updGang c.g fun x => x.advance c ready jumps sw (s.nextIssue c.g)
    let s' := s'.updRing k.part k.ring fun r => { r with instr := wrapAdd two64 r.instr 1 }
    let s' := s'.updCore (coreOf c.g) fun y => { y with retired := y.retired + 1 }
    (s'.charge k.part k.tally 0 1).settle c.g

/-- The issue of one instruction by a chosen path (R64), its fetch first (R108). The command's words are those that the fetch gives: a
command with others is no issue of this state (log entry 108). -/
def issuePath (sem : Ctx → State → Issue) (g w x path : Nat) (s : State) : State :=
  match s.fetch g path with
  | .wait => s
  | .trap code ex u => finish (u.ctx g w x path) [] u (.trap code ex)
  | .words w' x' u =>
    if w' = w && (!bit w 63 || x' = x) then
      finish (u.ctx g w x path) (s.readyLanes g) u (sem (u.ctx g w x path) u)
    else s

/-- A gang without a ready path is looked at: a switch point (R65), and the path for which the whole gang waits is noted. -/
def State.look (s : State) (g : Nat) : State :=
  if (s.gang g).mode = .running then
    let h := s.holder? g
    s.updGang g fun x => { x with switch := true, mWait := h.getD 0 }
  else s

/-- A gang issues an instruction word under a given meaning. A gang that is not live, halted, trapped or without a ready path issues
nothing. -/
def issueTurn (sem : Ctx → State → Issue) (g w x : Nat) (s : State) : State :=
  if s.alive g then
    match s.turn g with
    | some path => issuePath sem g w x path s
    | none => s.look g
  else s

/-- A gang issues when its sub-core takes it (R63). -/
def issueRaw (sem : Ctx → State → Issue) (g w x : Nat) (s : State) : State := if s.first g then issueTurn sem g w x s else s

/-- An instruction word with a given opcode in its bits [57:50] (R99). -/
def withOp (op : Nat) (w : DWord) : Nat := w.toNat - fld w 57 50 * 2 ^ 50 + op * 2 ^ 50

/-- A gang issues an instruction of a given opcode (R63 to R67). -/
def issue (sem : Ctx → State → Issue) (op : Nat) (g : Nat) (w x : DWord) (s : State) : State :=
  issueRaw sem g (withOp op w) x.toNat s

/-! The integer ALU class (R109, R518). -/

def execIadd (g : Nat) (w x : DWord) (s : State) : Host.Outcome State Fault Refusal := .next (issue semIadd 0x00 g w x s)
def execIsub (g : Nat) (w x : DWord) (s : State) : Host.Outcome State Fault Refusal := .next (issue semIsub 0x01 g w x s)
def execImul (g : Nat) (w x : DWord) (s : State) : Host.Outcome State Fault Refusal := .next (issue semImul 0x02 g w x s)
def execImulhiU (g : Nat) (w x : DWord) (s : State) : Host.Outcome State Fault Refusal := .next (issue semImulhiU 0x03 g w x s)
def execImulhiS (g : Nat) (w x : DWord) (s : State) : Host.Outcome State Fault Refusal := .next (issue semImulhiS 0x04 g w x s)
def execImad (g : Nat) (w x : DWord) (s : State) : Host.Outcome State Fault Refusal := .next (issue semImad 0x05 g w x s)
def execIdivU (g : Nat) (w x : DWord) (s : State) : Host.Outcome State Fault Refusal := .next (issue semIdivU 0x06 g w x s)
def execIdivS (g : Nat) (w x : DWord) (s : State) : Host.Outcome State Fault Refusal := .next (issue semIdivS 0x07 g w x s)
def execIremU (g : Nat) (w x : DWord) (s : State) : Host.Outcome State Fault Refusal := .next (issue semIremU 0x08 g w x s)
def execIremS (g : Nat) (w x : DWord) (s : State) : Host.Outcome State Fault Refusal := .next (issue semIremS 0x09 g w x s)
def execIminU (g : Nat) (w x : DWord) (s : State) : Host.Outcome State Fault Refusal := .next (issue semIminU 0x0A g w x s)
def execIminS (g : Nat) (w x : DWord) (s : State) : Host.Outcome State Fault Refusal := .next (issue semIminS 0x0B g w x s)
def execImaxU (g : Nat) (w x : DWord) (s : State) : Host.Outcome State Fault Refusal := .next (issue semImaxU 0x0C g w x s)
def execImaxS (g : Nat) (w x : DWord) (s : State) : Host.Outcome State Fault Refusal := .next (issue semImaxS 0x0D g w x s)
def execIabs (g : Nat) (w x : DWord) (s : State) : Host.Outcome State Fault Refusal := .next (issue semIabs 0x0E g w x s)
def execIneg (g : Nat) (w x : DWord) (s : State) : Host.Outcome State Fault Refusal := .next (issue semIneg 0x0F g w x s)
def execAnd (g : Nat) (w x : DWord) (s : State) : Host.Outcome State Fault Refusal := .next (issue semAnd 0x10 g w x s)
def execOr (g : Nat) (w x : DWord) (s : State) : Host.Outcome State Fault Refusal := .next (issue semOr 0x11 g w x s)
def execXor (g : Nat) (w x : DWord) (s : State) : Host.Outcome State Fault Refusal := .next (issue semXor 0x12 g w x s)
def execNot (g : Nat) (w x : DWord) (s : State) : Host.Outcome State Fault Refusal := .next (issue semNot 0x13 g w x s)
def execShl (g : Nat) (w x : DWord) (s : State) : Host.Outcome State Fault Refusal := .next (issue semShl 0x14 g w x s)
def execShr (g : Nat) (w x : DWord) (s : State) : Host.Outcome State Fault Refusal := .next (issue semShr 0x15 g w x s)
def execSar (g : Nat) (w x : DWord) (s : State) : Host.Outcome State Fault Refusal := .next (issue semSar 0x16 g w x s)
def execPopc (g : Nat) (w x : DWord) (s : State) : Host.Outcome State Fault Refusal := .next (issue semPopc 0x17 g w x s)
def execClz (g : Nat) (w x : DWord) (s : State) : Host.Outcome State Fault Refusal := .next (issue semClz 0x18 g w x s)
def execBrev (g : Nat) (w x : DWord) (s : State) : Host.Outcome State Fault Refusal := .next (issue semBrev 0x19 g w x s)
def execMov (g : Nat) (w x : DWord) (s : State) : Host.Outcome State Fault Refusal := .next (issue semMov 0x1A g w x s)
def execShfl (g : Nat) (w x : DWord) (s : State) : Host.Outcome State Fault Refusal := .next (issue semShfl 0x1B g w x s)
def execLaneid (g : Nat) (w x : DWord) (s : State) : Host.Outcome State Fault Refusal := .next (issue semLaneid 0x1C g w x s)
def execMdescSet (g : Nat) (w x : DWord) (s : State) : Host.Outcome State Fault Refusal := .next (issue semMdescSet 0x1D g w x s)
def execMdescGet (g : Nat) (w x : DWord) (s : State) : Host.Outcome State Fault Refusal := .next (issue semMdescGet 0x1E g w x s)
def execPrd (g : Nat) (w x : DWord) (s : State) : Host.Outcome State Fault Refusal := .next (issue semPrd 0x1F g w x s)
def execPwr (g : Nat) (w x : DWord) (s : State) : Host.Outcome State Fault Refusal := .next (issue semPwr 0x20 g w x s)
def execIcmpEq (g : Nat) (w x : DWord) (s : State) : Host.Outcome State Fault Refusal := .next (issue semIcmpEq 0x21 g w x s)
def execIcmpNe (g : Nat) (w x : DWord) (s : State) : Host.Outcome State Fault Refusal := .next (issue semIcmpNe 0x22 g w x s)
def execIcmpLtU (g : Nat) (w x : DWord) (s : State) : Host.Outcome State Fault Refusal := .next (issue semIcmpLtU 0x23 g w x s)
def execIcmpGeU (g : Nat) (w x : DWord) (s : State) : Host.Outcome State Fault Refusal := .next (issue semIcmpGeU 0x24 g w x s)
def execIcmpLtS (g : Nat) (w x : DWord) (s : State) : Host.Outcome State Fault Refusal := .next (issue semIcmpLtS 0x25 g w x s)
def execIcmpGeS (g : Nat) (w x : DWord) (s : State) : Host.Outcome State Fault Refusal := .next (issue semIcmpGeS 0x26 g w x s)

/-! The floating-point class (R519, R520). -/

def execFadd (g : Nat) (w x : DWord) (s : State) : Host.Outcome State Fault Refusal := .next (issue semFadd 0x30 g w x s)
def execFsub (g : Nat) (w x : DWord) (s : State) : Host.Outcome State Fault Refusal := .next (issue semFsub 0x31 g w x s)
def execFmul (g : Nat) (w x : DWord) (s : State) : Host.Outcome State Fault Refusal := .next (issue semFmul 0x32 g w x s)
def execFfma (g : Nat) (w x : DWord) (s : State) : Host.Outcome State Fault Refusal := .next (issue semFfma 0x33 g w x s)
def execFdiv (g : Nat) (w x : DWord) (s : State) : Host.Outcome State Fault Refusal := .next (issue semFdiv 0x34 g w x s)
def execFsqrt (g : Nat) (w x : DWord) (s : State) : Host.Outcome State Fault Refusal := .next (issue semFsqrt 0x35 g w x s)
def execFmin (g : Nat) (w x : DWord) (s : State) : Host.Outcome State Fault Refusal := .next (issue semFmin 0x36 g w x s)
def execFmax (g : Nat) (w x : DWord) (s : State) : Host.Outcome State Fault Refusal := .next (issue semFmax 0x37 g w x s)
def execFabs (g : Nat) (w x : DWord) (s : State) : Host.Outcome State Fault Refusal := .next (issue semFabs 0x38 g w x s)
def execFneg (g : Nat) (w x : DWord) (s : State) : Host.Outcome State Fault Refusal := .next (issue semFneg 0x39 g w x s)
def execFrcpApprox (g : Nat) (w x : DWord) (s : State) : Host.Outcome State Fault Refusal := .next (issue semFrcpApprox 0x3A g w x s)
def execFrsqApprox (g : Nat) (w x : DWord) (s : State) : Host.Outcome State Fault Refusal := .next (issue semFrsqApprox 0x3B g w x s)
def execFex2Approx (g : Nat) (w x : DWord) (s : State) : Host.Outcome State Fault Refusal := .next (issue semFex2Approx 0x3C g w x s)
def execFlg2Approx (g : Nat) (w x : DWord) (s : State) : Host.Outcome State Fault Refusal := .next (issue semFlg2Approx 0x3D g w x s)
def execFsinApprox (g : Nat) (w x : DWord) (s : State) : Host.Outcome State Fault Refusal := .next (issue semFsinApprox 0x3E g w x s)
def execFcosApprox (g : Nat) (w x : DWord) (s : State) : Host.Outcome State Fault Refusal := .next (issue semFcosApprox 0x3F g w x s)
def execFtanhApprox (g : Nat) (w x : DWord) (s : State) : Host.Outcome State Fault Refusal := .next (issue semFtanhApprox 0x40 g w x s)
def execFcmpEq (g : Nat) (w x : DWord) (s : State) : Host.Outcome State Fault Refusal := .next (issue semFcmpEq 0x41 g w x s)
def execFcmpNe (g : Nat) (w x : DWord) (s : State) : Host.Outcome State Fault Refusal := .next (issue semFcmpNe 0x42 g w x s)
def execFcmpLt (g : Nat) (w x : DWord) (s : State) : Host.Outcome State Fault Refusal := .next (issue semFcmpLt 0x43 g w x s)
def execFcmpLe (g : Nat) (w x : DWord) (s : State) : Host.Outcome State Fault Refusal := .next (issue semFcmpLe 0x44 g w x s)
def execFcmpGt (g : Nat) (w x : DWord) (s : State) : Host.Outcome State Fault Refusal := .next (issue semFcmpGt 0x45 g w x s)
def execFcmpGe (g : Nat) (w x : DWord) (s : State) : Host.Outcome State Fault Refusal := .next (issue semFcmpGe 0x46 g w x s)
def execFcmpUnord (g : Nat) (w x : DWord) (s : State) : Host.Outcome State Fault Refusal := .next (issue semFcmpUnord 0x47 g w x s)
def execFcmpOrd (g : Nat) (w x : DWord) (s : State) : Host.Outcome State Fault Refusal := .next (issue semFcmpOrd 0x48 g w x s)
def execCvtTo (g : Nat) (w x : DWord) (s : State) : Host.Outcome State Fault Refusal := .next (issue semCvtTo 0x50 g w x s)
def execCvtFrom (g : Nat) (w x : DWord) (s : State) : Host.Outcome State Fault Refusal := .next (issue semCvtFrom 0x51 g w x s)

/-! The control class (R110). -/

def execBra (g : Nat) (w x : DWord) (s : State) : Host.Outcome State Fault Refusal := .next (issue semBra 0x60 g w x s)
def execBrx (g : Nat) (w x : DWord) (s : State) : Host.Outcome State Fault Refusal := .next (issue semBrx 0x61 g w x s)
def execCall (g : Nat) (w x : DWord) (s : State) : Host.Outcome State Fault Refusal := .next (issue semCall 0x62 g w x s)
def execCallx (g : Nat) (w x : DWord) (s : State) : Host.Outcome State Fault Refusal := .next (issue semCallx 0x63 g w x s)
def execRet (g : Nat) (w x : DWord) (s : State) : Host.Outcome State Fault Refusal := .next (issue semRet 0x64 g w x s)
def execExit (g : Nat) (w x : DWord) (s : State) : Host.Outcome State Fault Refusal := .next (issue semExit 0x65 g w x s)
def execYield (g : Nat) (w x : DWord) (s : State) : Host.Outcome State Fault Refusal := .next (issue semYield 0x66 g w x s)
def execTrap (g : Nat) (w x : DWord) (s : State) : Host.Outcome State Fault Refusal := .next (issue semTrap 0x67 g w x s)
def execBrk (g : Nat) (w x : DWord) (s : State) : Host.Outcome State Fault Refusal := .next (issue semBrk 0x68 g w x s)

/-! Fences, barriers and the special class. -/

def execFence (g : Nat) (w x : DWord) (s : State) : Host.Outcome State Fault Refusal := .next (issue semFence 0x80 g w x s)
def execBarGang (g : Nat) (w x : DWord) (s : State) : Host.Outcome State Fault Refusal := .next (issue semBarGang 0x81 g w x s)
def execBarNamed (g : Nat) (w x : DWord) (s : State) : Host.Outcome State Fault Refusal := .next (issue semBarNamed 0x82 g w x s)
def execTimeRd (g : Nat) (w x : DWord) (s : State) : Host.Outcome State Fault Refusal := .next (issue semTimeRd 0xA0 g w x s)
def execGstRd (g : Nat) (w x : DWord) (s : State) : Host.Outcome State Fault Refusal := .next (issue semGstRd 0xA1 g w x s)
def execGstClr (g : Nat) (w x : DWord) (s : State) : Host.Outcome State Fault Refusal := .next (issue semGstClr 0xA2 g w x s)

/-! The matrix class. -/

def execMfragLoad (g : Nat) (w x : DWord) (s : State) : Host.Outcome State Fault Refusal := .next (issue semMfragLoad 0x90 g w x s)
def execMfragStore (g : Nat) (w x : DWord) (s : State) : Host.Outcome State Fault Refusal := .next (issue semMfragStore 0x91 g w x s)
def execMmaStat (g : Nat) (w x : DWord) (s : State) : Host.Outcome State Fault Refusal := .next (issue semMmaStat 0x92 g w x s)
def execMmaRun (g : Nat) (w x : DWord) (s : State) : Host.Outcome State Fault Refusal := .next (issue semMmaRun 0x93 g w x s)
def execMmaDrain (g : Nat) (w x : DWord) (s : State) : Host.Outcome State Fault Refusal := .next (issue semMmaDrain 0x94 g w x s)

/-! Conveyors. -/

def execCvPush (g : Nat) (w x : DWord) (s : State) : Host.Outcome State Fault Refusal := .next (issue (semCv false false) 0x88 g w x s)
def execCvPop (g : Nat) (w x : DWord) (s : State) : Host.Outcome State Fault Refusal := .next (issue (semCv true false) 0x89 g w x s)
def execCvPushTry (g : Nat) (w x : DWord) (s : State) : Host.Outcome State Fault Refusal := .next (issue (semCv false true) 0x8A g w x s)
def execCvPopTry (g : Nat) (w x : DWord) (s : State) : Host.Outcome State Fault Refusal := .next (issue (semCv true true) 0x8B g w x s)

/-- ILLEGAL_OPCODE (R101): a word whose opcode is defined is no such event. -/
def execIllegalOpcode (g : Nat) (w x : DWord) (s : State) : Host.Outcome State Fault Refusal :=
  .next (if opDefined (fld w 57 50) then s else issueRaw semIllegal g w.toNat x.toNat s)

end Sys2Proof.Machine
end

