-- ==== Sys2Proof/Machine/Commit.lean ====
section
/-!
DEFINITION. Commit groups (R55 to R59, R255, R280, R336, R522), and the HEAD registers of the side rings (R311, R452, R477,
R481).
-/

namespace Sys2Proof.Machine

/-! Group operations (R55, R57). -/

def Group.refuse {α : Type} (g : Group α) (code : Nat) : Group α := { g with status := code }
def Group.request {α : Type} (g : Group α) (x : α) : Group α := { g with pend := some x }
/-- The pending set becomes live. -/
def Group.swap {α : Type} (g : Group α) : Group α :=
  match g.pend with
  | some x => { g with live := x, pend := none, count := wrapAdd 65536 g.count 1, status := 0 }
  | none => g
/-- An apply sets the group: a pending commit ends with SUPERSEDED. -/
def Group.supersede {α : Type} (g : Group α) : Group α := if g.pend.isSome then { g with pend := none, status := 5 } else g
/-- A COMMIT register's value. -/
def Group.reg {α : Type} (g : Group α) : Nat := pack [(0, b2n g.pend.isSome), (8, g.status), (16, g.count)]

/-! Rings and side rings: each group with its number for R522, the bytes of an entry and the sizes allowed. -/

/-- A group of BASE and SIZE: the levels 0 to 7, 8 sump, 9 fault ring, 10 energy ring. -/
def Part.group (x : Part) (i : Nat) : Group BaseSize :=
  match i with
  | 8 => x.sump
  | 9 => x.fltGrp
  | 10 => x.en.ering
  | n => (Tab.get {} x.rings n).grp

def State.updGroup (s : State) (p i : Nat) (f : Group BaseSize → Group BaseSize) : State :=
  match i with
  | 8 => s.updPart p fun x => { x with sump := f x.sump }
  | 9 => s.updPart p fun x => { x with fltGrp := f x.fltGrp }
  | 10 => s.updPart p fun x => { x with en := { x.en with ering := f x.en.ering } }
  | n => s.updRing p n fun r => { r with grp := f r.grp }

def groupUnit (i : Nat) : Nat := if i = 10 then 256 else 64
def groupMin (i : Nat) : Nat := if i = 10 then 16 else 64

/-- A COMMIT write of a BASE and SIZE group (R55, R59, R522). -/
def State.commitRange (s : State) (p i : Nat) : State :=
  let g := (s.part p).group i
  if g.pend.isSome then s
  else if (s.part p).draining then s.updGroup p i fun g => g.refuse 4
  else
    let n := g.shadow.size
    if !isPow2 n || n < groupMin i || n > 65536 || bit g.shadow.base 55 then s.updGroup p i fun g => g.refuse 2
    else
      match s.back p i g.shadow.base (n * groupUnit i) with
      | (0, s) => s.updGroup p i fun g => g.request g.shadow
      | (code, _) => s.updGroup p i fun g => g.refuse code

/-- A diverted COMPLETE that waits on the sump tries again. -/
def State.sumpRetry (s : State) (p : Nat) : State :=
  (s.part p).cmds.foldl (fun s e => if e.2.wait == .sumpSpace then s.divert p e.1 else s) s

/-- The swap of a BASE and SIZE group at its boundary (R59). -/
def State.swapRange (s : State) (p i : Nat) : State :=
  let g := (s.part p).group i
  match g.pend with
  | none => s
  | some b =>
    let done := fun (s : State) => (s.updGroup p i Group.swap).unback p i b.base (b.size * groupUnit i)
    match i with
    | 8 => (done (s.updPart p fun x => { x with sumpHead := 0, sumpTail := 0 })).sumpRetry p
    | 9 => (done (s.updPart p fun x => { x with flt := { x.flt with head := 0, tail := 0, sq := 0 } })).flushRing (some p)
    | 10 => (done (s.updPart p fun x => { x with en := { x.en with head := 0, tail := 0 } })).energyOut p
    | n =>
      let r := s.ring p n
      if r.started.isEmpty then
        done (s.updRing p n fun r => { r with
          head := 0, tail := 0, next := 0, skip := 0, frames := [], bells := [], wasFull := false, guilty := false })
      else s

/-! Seams (R280). -/

/-- A COMMIT of a pinned seam's group: the mask is read during the access. -/
def State.commitSeam (s : State) (p i : Nat) : State :=
  let x := s.seam p i
  let refuse := fun (code : Nat) => s.updSeam p i fun y => { y with grp := y.grp.refuse code }
  if x.grp.pend.isSome then s
  else if (s.part p).draining then refuse 4
  else if x.d.chans.isEmpty || x.region.isSome || !s.seamPinned p i then refuse 2
  else
    let c := x.grp.shadow.chans
    match s.sv.pool p x.pool with
    | none => refuse 2
    | some pl =>
      match s.vread tlbNone p (c / 2 ^ 56) (bits c 55 6 * 64) 64 with
      | some (d, false) =>
        let m := setBits 512 (leVal d)
        if bit c 55 || !isPow2 m.length || m.any (fun i => (s.chan i).state != .live) || x.grp.shadow.stride < 8 || x.grp.shadow.stride > 12
        then refuse 2
        else if m.any (fun i => !bit pl.chans i) || x.grp.shadow.stride < pl.smin || x.grp.shadow.stride > pl.smax then refuse 3
        else s.updSeam p i fun y => { y with grp := y.grp.request { y.grp.shadow with mask := m } }
      | _ => refuse 2

/-- The boundary of a seam group: a shot window, or no cadence, once every launch that uses the seam has drained. The seam's
groups then move as a forced move. -/
def State.swapSeam (s : State) (p i : Nat) : State :=
  let x := s.seam p i
  match x.grp.pend with
  | none => s
  | some m =>
    if (s.tim.cad.window.isSome || s.tim.cad.live.isNone) && !s.moveDue p i && !x.active && s.seamQuiet p i
    then s.updSeam p i fun y => { y with grp := y.grp.swap, goal := some ({ chans := m.mask, stride := m.stride }, 0) }
    else s

/-! Adit windows (R255). -/

def State.updAdit (s : State) (p a : Nat) (f : Group AditSet → Group AditSet) : State :=
  s.updPart p fun x => { x with adits := Tab.upd { live := {}, shadow := {} } x.adits a f }

/-- A window that the Survey assigns to the partition. -/
def State.aditOwn (s : State) (p a : Nat) : Bool := match s.sv.outWin a with | some o => o.1 == p | none => false

def State.commitAdit (s : State) (p a : Nat) : State :=
  let g := Tab.get { live := {}, shadow := {} } (s.part p).adits a
  let refuse := fun (code : Nat) => s.updAdit p a fun g => g.refuse code
  match s.sv.outWin a with
  | some (o, perm, lo, hi) =>
    let w := g.shadow
    let dev := bits w.target 29 16
    if o != p || g.pend.isSome then s
    else if (s.part p).draining then refuse 4
    else if w.base ≥ w.limit then refuse 1
    else if dev < lo || dev > hi || (w.target % 8 &&& (7 - perm % 8)) != 0 then refuse 3
    else s.updAdit p a fun g => g.request g.shadow
  | none => s

/-- A transfer through the window is in flight. -/
def State.aditBusy (s : State) (p a : Nat) : Bool :=
  let hit := fun (l : Loc) => match l with | .adit q w _ _ _ => q == p && w == a | _ => false
  s.gangs.any (fun e => e.2.pend.any fun x => x.lanes.any fun y => !y.ready && hit y.loc) ||
  s.subs.any (fun e => e.2.any fun x => hit x.loc) ||
  s.fab.tagFlow.any (fun e => e.2 == aditFlow p a + 1)

def State.swapAdit (s : State) (p a : Nat) : State := if s.aditBusy p a then s else s.updAdit p a Group.swap

/-! The cadence group (R336, R337). -/

def State.commitCad (s : State) : State :=
  let c := s.tim.cad
  if c.pend.isSome then s
  else
    match c.shadow.check s.sv with
    | 0 => s.updCad fun c => { c with
        pend := some (some { c.shadow with slots := Tab.clear (fun k => decide (k ≥ c.shadow.count)) c.shadow.slots })
        start := if c.live.isNone then s.tim.now else c.start }
    | code => s.updCad fun c => { c with status := code }

/-- The boundary of the cadence group: the end of the current period. -/
def State.swapCad (s : State) : State :=
  match s.tim.cad.ended s.tim.now, s.tim.cad.pend with
  | some e, some p => s.closeWindow.takeCadence p e
  | _, _ => s

/-! The rows. -/

/-- CMD_RING_COMMIT (R59, R522). -/
def execCmdRingCommit (q n : Nat) (s : State) : Host.Outcome State Fault Refusal :=
  .next (s.partOp (s.who q) 2 fun p s => if n < 8 then s.commitRange p n else s)

/-- CMD_SUMP_COMMIT. -/
def execCmdSumpCommit (q : Nat) (s : State) : Host.Outcome State Fault Refusal := .next (s.partOp (s.who q) 2 fun p s => s.commitRange p 8)

/-- FLT_RING_COMMIT. -/
def execFltRingCommit (q : Nat) (s : State) : Host.Outcome State Fault Refusal := .next (s.partOp (s.who q) 13 fun p s => s.commitRange p 9)

/-- CKW_ERING_COMMIT. -/
def execCkwEringCommit (q : Nat) (s : State) : Host.Outcome State Fault Refusal := .next (s.partOp (s.who q) 10 fun p s => s.commitRange p 10)

/-- PLC_SEAM_COMMIT. -/
def execPlcSeamCommit (q i : Nat) (s : State) : Host.Outcome State Fault Refusal :=
  .next (s.partOp (s.who q) 5 fun p s => if i < 256 then s.commitSeam p i else s)

/-- XLT_ADIT_COMMIT. -/
def execXltAditCommit (q a : Nat) (s : State) : Host.Outcome State Fault Refusal :=
  .next (s.partOp (s.who q) 3 fun p s => if a < 256 then s.commitAdit p a else s)

/-- TIM_CAD_COMMIT. -/
def execTimCadCommit (q : Nat) (s : State) : Host.Outcome State Fault Refusal := .next (s.globalOp q 6 State.commitCad)

/-- COMMIT_SWAP (R55): at its group's boundary the pending set becomes live. -/
def execCommitSwap (k : GroupId) (s : State) : Host.Outcome State Fault Refusal :=
  .next (match k with
    | .ring p n => if n < 8 then s.swapRange p n else s
    | .sump p => s.swapRange p 8
    | .fault p => s.swapRange p 9
    | .energy p => s.swapRange p 10
    | .seam p i => s.swapSeam p i
    | .adit p a => s.swapAdit p a
    | .cadence => s.swapCad)

/-- CMD_SUMP_HEAD (R311): the driver frees entries. -/
def State.setSumpHead (s : State) (p v : Nat) : State := (s.updPart p fun x => { x with sumpHead := v % two32 }).sumpRetry p
/-- FLT_RING_HEAD (R481). -/
def State.setFltHead (s : State) (p v : Nat) : State :=
  (s.updPart p fun x => { x with flt := { x.flt with head := v % two32 } }).flushRing (some p)
/-- CKW_ERING_HEAD (R452). -/
def State.setEringHead (s : State) (p v : Nat) : State :=
  (s.updPart p fun x => { x with en := { x.en with head := v % two32 } }).energyOut p
/-- FLT_DRING_HEAD (R477). -/
def State.setDringHead (s : State) (v : Nat) : State :=
  ({ s with flt := { s.flt with ring := { s.flt.ring with head := v % two32 } } }).flushRing none

/-- The primary port's physical function, and the Pithead, see the device's registers of FLT (R493). -/
def State.isPrimaryPf (s : State) (q : Nat) : Bool := q == 33 || q == s.primary * 16

def execCmdSumpHead (q v : Nat) (s : State) : Host.Outcome State Fault Refusal := .next (s.partOp (s.who q) 2 fun p s => s.setSumpHead p v)
def execFltRingHead (q v : Nat) (s : State) : Host.Outcome State Fault Refusal := .next (s.partOp (s.who q) 13 fun p s => s.setFltHead p v)
def execCkwEringHead (q v : Nat) (s : State) : Host.Outcome State Fault Refusal := .next (s.partOp (s.who q) 10 fun p s => s.setEringHead p v)
def execFltDringHead (q v : Nat) (s : State) : Host.Outcome State Fault Refusal :=
  .next (if s.hears q && s.rel 1 && s.isPrimaryPf q then s.setDringHead v else s)

end Sys2Proof.Machine
end

