-- ==== Sys2Proof/Machine/Views.lean ====
section
/-!
DEFINITION. The registers of BAR0 as they read (R18 to R26, R45, R86 to R90, R235 to R237, R258, R282, R318, R319, R340,
R373, R393, R413, R427, R454, R474, R493): a register's size, value, and whether a read clears it.
-/

namespace Sys2Proof.Machine

/-- A register: 4 or 8 bytes, its value, and RC (R6, R7). -/
structure Reg where
  size : Nat
  val : Nat
  rc : Bool := false

def r32 (v : Nat) : Option Reg := some { size := 4, val := v % two32 }
def r64 (v : Nat) : Option Reg := some { size := 8, val := v % two64 }
def rc32 (v : Nat) : Option Reg := some { size := 4, val := v % two32, rc := true }
def rc64 (v : Nat) : Option Reg := some { size := 8, val := v % two64, rc := true }

/-! DEV and SRV. -/

/-- SURVEY_LIVE (R25, R48): an image is applied, and at a start D6 has been released. -/
def State.live (s : State) : Bool := s.srv.applied.isSome && (s.rel 6 || s.rst.stage == 10)

def State.devStatus (s : State) : Nat :=
  s.rst.released % 128 + pack [(7, b2n (s.rst.refuge != 0)), (8, b2n s.live)]

def State.devReg (s : State) (w : Who) (o : Nat) : Option Reg :=
  match o with
  | 0x00 => r32 0x4A09B000
  | 0x08 => r64 Config.devSerial.toNat
  | 0x10 => r32 s.devStatus
  | 0x18 => rc32 s.foreignWr
  | 0x20 => r64 (pack ((List.range 4).map fun t => (8 * t, s.pwr.temps.getD t 0)) + pack [(32, s.pwr.stack),
      (40, b2n (s.pwr.thermal.any (· != 0) || s.pwr.stackPace != 0)), (41, b2n (s.pwr.env != 0))])
  | 0x28 => r64 (pack ((List.range 4).map fun t => (8 * t, s.pwr.setp.getD t 0)) + pack [(32, s.pwr.amps), (44, s.pwr.avsFail),
      (49, b2n s.pwr.miss), (50, s.pwr.share.foldl max 0)])
  | 0x30 => let (p, n) := s.partSel w.q; r32 (p + 16 * b2n (n && (s.fn w.q).partSel.isSome))
  | _ => none

def SrvState.num : SrvState → Nat
  | .idle => 0 | .fetching => 1 | .validating => 2 | .draining => 3 | .waiting => 4 | .applying => 5 | .storing => 6
  | .done => 7 | .failed => 8

def State.srvStatus (s : State) : Nat := pack [(16, s.srv.code), (24, s.srv.state.num)]

/-- The image that the SRV registers show as applied: the earlier one until the apply ends (R52). -/
def State.shown (s : State) : Survey :=
  (if s.srv.state = .applying then s.srv.old else s.srv.applied).getD Survey.none

def State.srvReg (s : State) (o : Nat) : Option Reg :=
  match o with
  | 0x00 => r64 s.srv.addr
  | 0x08 => r32 s.srv.len
  | 0x0C => r32 0
  | 0x10 => r32 s.srvStatus
  | 0x18 => r64 s.srv.detail
  | 0x20 => r64 s.shown.serial
  | 0x28 => r32 s.srv.drain
  | _ => if 0x40 ≤ o && o < 0x60 && o % 4 = 0 then r32 (u32 s.shown.hash (o - 0x40)) else none

/-! CMD (R315, R318, R319). -/

/-- CMD_RING_STATUS.STATE (R319, log entry 125). -/
def State.ringState (s : State) (p n : Nat) : Nat :=
  let r := s.ring p n
  let waits := r.busy.any fun k => match (s.cmd p k).wait with
    | .sem _ _ | .time _ | .gate _ | .earlier | .sumpSpace | .tally | .hold | .epoch _ | .red _ | .xport | .word | .skip | .fit | .again => true
    | _ => false
  let held := match callOf r.frames with
    | some _ => false
    | none => decide (0 < r.room) && (s.slotsNamed p (match s.vread (tlbCp p) p (r.addr r.pos).1 (r.addr r.pos).2 64 with | some d => d.1 | none => [])).any
        fun sl => s.heldSlot p sl
  if r.guilty then 6
  else if !r.enable then 0
  else if (s.part p).draining then 5
  else if !r.busy.isEmpty then (if waits then 3 else 2)
  else if r.skip > 0 then 3
  else if held then 4
  else if r.room = 0 && r.started.isEmpty then 1 else 2

def State.ringStatus (s : State) (p n : Nat) : Nat :=
  let r := s.ring p n
  let loops := (r.frames.filter fun f => match f with | .loop _ _ _ _ _ => true | _ => false).length
  let fill := modSub two32 r.tail r.head
  pack [(0, s.ringState p n), (7, b2n (fill == r.grp.live.size && fill != 0)), (8, r.started.length), (16, loops),
        (20, r.frames.length - loops)]

/-- CMD_RING_AGE (R315): since the doorbell that made the oldest unretired command visible. -/
def State.ringAge (s : State) (p n : Nat) : Nat :=
  let r := s.ring p n
  match r.bells.find? fun e => decide (0 < modSub two32 e.1 r.head ∧ modSub two32 e.1 r.head ≤ two32 / 2) with
  | some e => min 0xFFFFFFFF ((s.tim.now - e.2) / 1000)
  | none => 0

def State.ringReg (s : State) (p n i : Nat) : Option Reg :=
  let r := s.ring p n
  match i with
  | 0x00 => r64 r.grp.shadow.base
  | 0x08 => r32 r.grp.shadow.size
  | 0x0C => r32 r.grp.reg
  | 0x10 => r32 (pack [(0, b2n r.enable), (2, b2n r.spaceIrq)])
  | 0x14 => r32 (s.ringStatus p n)
  | 0x18 => r32 r.head
  | 0x1C => r32 r.tail
  | 0x20 => r64 r.retired
  | 0x28 => r64 r.instr
  | 0x30 => r32 (s.ringAge p n)
  | 0x34 => r32 r.guiltySeq
  | 0x38 => r64 (pack [(0, r.err.count), (16, r.err.code), (24, r.err.op), (32, r.err.sq)])
  | _ => none

def State.cmdReg (s : State) (p o : Nat) : Option Reg :=
  let x := s.part p
  if o < 0x400 then s.ringReg p (o / 0x80) (o % 0x80)
  else
    match o with
    | 0x400 => r64 x.sump.shadow.base
    | 0x408 => r32 x.sump.shadow.size
    | 0x40C => r32 x.sump.reg
    | 0x410 => r32 x.sumpHead
    | 0x414 => r32 x.sumpTail
    | 0x418 => rc32 x.sumpLost
    | 0x41C => rc32 x.dbBad
    | _ => none

/-! XLT (R258). -/

/-- XLT_FAULT_PENDING: the partition's stalled copy engines. -/
def State.faultPending (s : State) (p : Nat) : Nat :=
  maskOf ((s.engines.filter fun e => e.2.stalled && (match e.2.busy with | some (q, _) => q == p | none => false)).map (·.1))

def State.xltEpoch (s : State) (p : Nat) : Nat := s.oldest p * 65536 + (s.part p).epoch

def State.xltReg (s : State) (p o : Nat) : Option Reg :=
  let x := s.part p
  if o = 0 then r32 (s.xltEpoch p)
  else if o = 4 then r32 0
  else if o = 8 then r64 (s.faultPending p)
  else if 0x1000 ≤ o && o < 0x1800 && o % 8 = 0 then r64 (Tab.get 0 x.as ((o - 0x1000) / 8))
  else if 0x2000 ≤ o && o < 0x4000 then
    let a := (o - 0x2000) / 32
    let g := Tab.get { live := {}, shadow := {} } x.adits a
    if !s.aditOwn p a then none
    else
      match o % 32 with
      | 0x00 => r64 g.shadow.base
      | 0x08 => r64 g.shadow.limit
      | 0x10 => r32 g.shadow.target
      | 0x14 => r32 g.reg
      | _ => none
  else if 0x4000 ≤ o && o < 0x4800 && o % 8 = 0 then
    let w := (o - 0x4000) / 8
    match s.sv.inWin w with
    | some d => if d.owner = p then r64 (Tab.get 0 x.inBind w) else none
    | none => none
  else none

/-! MEM (R235 to R237). -/

def ChanState.num : ChanState → Nat
  | .absent => 0 | .training => 1 | .live => 2 | .held => 3 | .dead => 4

def State.chanReg (s : State) (c : Nat) : Nat :=
  let x := s.chan c
  pack [(0, x.state.num), (5, x.spares.foldl (· + ·) 0), (8, s.retiredOn c), (24, x.pages), (40, x.ue), (48, x.ce)]

/-- A region is ABSENT while the Survey does not name it, EMPTY until it is loaded. -/
def State.regionReg (s : State) (r : Nat) : Nat :=
  match s.sv.region r with
  | none => 0
  | some d => pack [(0, (s.region r).state.num), (16, d.owner), (32, (s.region r).fixes)]

def State.memReg (s : State) (o : Nat) : Option Reg :=
  match o with
  | 0x00 => r64 s.capacity
  | 0x08 => rc32 s.mem.ceTotal
  | 0x0C => rc32 s.mem.ueTotal
  | 0x10 => rc32 s.mem.guardFixes
  | 0x14 => r32 s.mem.scrubPass
  | _ =>
    if 0x100 ≤ o && o < 0x140 && o % 4 = 0 then r32 (s.sv.wayMask ((o - 0x100) / 4))
    else if 0x140 ≤ o && o < 0x180 && o % 4 = 0 then r32 (s.sv.scratch ((o - 0x140) / 4))
    else if 0x1000 ≤ o && o < 0x2000 && o % 8 = 0 then r64 (s.chanReg ((o - 0x1000) / 8))
    else if 0x2000 ≤ o && o < 0x2200 && o % 8 = 0 then r64 (s.regionReg ((o - 0x2000) / 8))
    else none

/-! PLC (R282). -/

def State.plcStatus (s : State) (p : Nat) : Nat :=
  let x := (s.part p).plc
  let moving := (x.tensors.filter fun e => e.2.moving).length
  pack [(0, (x.stages.filter fun e => e.2.declared).length), (8, min 255 moving), (16, b2n x.pinnedAll)]

def State.plcReg (s : State) (p o : Nat) : Option Reg :=
  let x := (s.part p).plc
  match o with
  | 0x00 => r32 (s.plcStatus p)
  | 0x08 => r64 (s.freePages p)
  | 0x10 => rc32 x.moves
  | 0x14 => rc32 x.refusals
  | 0x18 => r32 x.grant
  | _ =>
    if 0x1000 ≤ o && o < 0x2000 then
      let g := (s.seam p ((o - 0x1000) / 16)).grp
      match o % 16 with
      | 0x0 => r64 g.shadow.chans
      | 0x8 => r32 g.shadow.stride
      | 0xC => r32 g.reg
      | _ => none
    else none

/-! TIM (R340). -/

def Cadence.reg (c : Cadence) : Nat := pack [(0, b2n c.pend.isSome), (8, c.status), (16, c.count)]

def State.timReg (s : State) (q o : Nat) : Option Reg :=
  let t := s.tim
  match o with
  | 0x00 => r64 t.now
  | 0x08 => r32 ((Tab.get none (s.fn q).rdLatch 0x0600008).getD t.frac)
  | 0x0C => r32 s.timStatus
  | 0x10 => r32 t.ctrl
  | 0x18 => r64 t.stage
  | 0x20 => r32 t.delay
  | 0x24 => r32 (pack [(0, t.err), (24, t.rejects)])
  | 0x28 => r64 t.last
  | 0x30 => r64 0
  | 0x38 => rc32 t.steps
  | 0x40 => r64 (if t.port.isSome then t.root else Config.devSerial.toNat)
  | 0x48 => r64 t.snap
  | 0x1000 => r32 t.cad.shadow.period
  | 0x1004 => r32 t.cad.shadow.count
  | 0x1008 => r32 t.cad.reg
  | 0x1010 => r64 t.cad.periods
  | _ => if 0x2000 ≤ o && o < 0x2800 && o % 8 = 0 then r64 (t.cad.shadow.slot ((o - 0x2000) / 8)) else none

/-! FAB (R373). -/

def FabState.num : FabState → Nat
  | .disabled => 0 | .detect => 1 | .train => 2 | .discover => 3 | .up => 4 | .hold => 5

def State.fabPortReg (s : State) (i : Nat) : Nat :=
  let x := s.fabPort i
  let up := x.state == .up
  pack [(0, x.state.num), (4, x.cause), (8, x.width), (10, x.rate), (18, min x.rtt 8191), (31, if up then x.nbrPort else 0),
        (36, if up then x.nbrId.getD 0 else 0)]

def State.fabIdReg (s : State) : Nat :=
  let f := s.fab
  pack [(0, s.devId.getD 0), (14, b2n s.idWaiting), (15, b2n f.isLeader), (16, f.source)]

def State.fabReg (s : State) (o : Nat) : Option Reg :=
  let f := s.fab
  if o = 0 then r32 s.fabIdReg
  else if o = 8 then r64 f.leader
  else if o = 0x10 then rc64 (pack [(0, f.link), (16, f.badType), (32, f.ttl), (48, f.noRoute)])
  else if 0x1000 ≤ o && o < 0x1400 then
    let i := (o - 0x1000) / 32
    let x := s.fabPort i
    match o % 32 with
    | 0x00 => r64 (s.fabPortReg i)
    | 0x08 => r64 (if x.state == .up then x.nbrSerial else 0)
    | 0x10 => rc64 (pack [(0, x.downs), (16, x.replays), (32, if x.frames then (Config.freeValue s.free).toNat % two32 else 0)])
    | 0x18 => r32 (b2n x.hold)
    | _ => none
  else if 0x10000 ≤ o && o < 0x20000 && o % 4 = 0 then r32 (s.routeEntry ((o - 0x10000) / 4))
  else if 0x20000 ≤ o && o < 0x20800 && o % 8 = 0 then
    let i := (o - 0x20000) / 8
    r64 (maskOf ((List.range 64).filter fun j => s.reachable (64 * i + j)))
  else none

/-! RED (R393). -/

def JobState.num : JobState → Nat
  | .free => 0 | .joined => 1 | .armed => 2 | .running => 3 | .deciding => 4

def Job.reg (j : Job) : Nat :=
  pack [(0, j.state.num), (18, j.tier), (20, j.rule), (22, j.mode), (23, j.ranks), (38, j.rank), (52, j.job)]
def Job.stepReg (j : Job) : Nat := pack [(0, j.at_.code), (16, j.at_.late), (32, j.step)]

/-- Slot i holds a job of partition p. -/
def State.ownsJob (s : State) (p i : Nat) : Bool := (s.job i).state != .free && (s.job i).part == p

def State.redActive (s : State) (p : Nat) : Nat := maskOf ((List.range 64).filter (s.ownsJob p))

def State.redReg (s : State) (p o : Nat) : Option Reg :=
  if o = 0 then r64 (s.redActive p)
  else if o = 8 then rc32 (s.part p).stale
  else if 0x1000 ≤ o && o < 0x1400 then
    let i := (o - 0x1000) / 16
    if !s.ownsJob p i then none
    else if o % 16 = 0 then r64 (s.job i).reg
    else if o % 16 = 8 then r64 (s.job i).stepReg else none
  else none

/-! HST (R413). -/

def PortDom.num : PortDom → Nat
  | .inReset => 0 | .ready => 1 | .lost => 2

def State.portStatus (s : State) (i : Nat) : Nat :=
  let x := s.port i
  pack [(0, b2n x.linkUp), (6, b2n x.dataOk), (7, b2n x.flit), (8, x.width), (12, x.rate), (24, x.dom.num),
        (30, b2n x.claimed), (31, b2n (s.primary == i))]

def State.hstReg (s : State) (o : Nat) : Option Reg :=
  if o < 0x200 then
    let x := s.port (o / 0x100)
    match o % 0x100 with
    | 0x00 => r32 (s.portStatus (o / 0x100))
    | 0x08 => r32 x.hostRid
    | 0x10 => rc64 (pack [(0, x.badVector), (8, x.downs), (16, x.bar2Miss), (32, x.peerRefused), (48, x.retrains)])
    | _ => none
  else if 0x1000 ≤ o && o < 0x1100 && o % 8 = 0 then r64 (Tab.get 0 s.binds ((o - 0x1000) / 8))
  else none

/-! CKW (R454). -/

def State.ckwStatus (s : State) (p : Nat) : Nat :=
  let e := (s.part p).en
  pack [(0, (e.tallies.filter fun t => t.2.opened).length), (17, min 256 (e.hold.length + e.waiting.length)),
        (29, b2n e.fault), (30, b2n (e.interval.recal || s.ckw.winRecal)), (31, b2n s.ckw.estimating)]

def State.ckwReg (s : State) (p o : Nat) : Option Reg :=
  let e := (s.part p).en
  match o with
  | 0x00 => r64 e.ering.shadow.base
  | 0x08 => r32 e.ering.shadow.size
  | 0x0C => r32 e.ering.reg
  | 0x10 => r32 e.head
  | 0x14 => r32 e.tail
  | 0x18 => r32 (s.ckwStatus p)
  | 0x1C => rc32 e.cutsSkipped
  | 0x20 => r64 e.sq
  | 0x28 => r32 s.flash.boot
  | 0x70 => r64 (s.ckw.pkg / 1000000)
  | 0x78 => r32 s.ckw.power
  | _ =>
    if 0x40 ≤ o && o < 0x70 && o % 8 = 0 then r64 (e.total.getD ((o - 0x40) / 8) 0 / 1000000)
    else if 0x100 ≤ o && o < 0x140 && o % 4 = 0 then r32 (if (o - 0x100) / 4 > 10 then 0 else Config.weight ((o - 0x100) / 4))
    else none

/-! DPT (R427). -/

/-- A word of a function's MSI-X table (R403): 64 vectors of a physical function, 16 of a virtual one. -/
def msixWord (q o : Nat) : Bool :=
  decide (q < 32) && decide (0xF0000 ≤ o) && o % 4 == 0 && decide (o < 0xF0000 + 16 * (if q % 16 = 0 then 64 else 16))

/-- An operation in a mailbox: 0 IDLE, 1 QUEUED, 2 RUNNING, 3 DONE, 4 FAILED. -/
def State.dptReg (s : State) (q o : Nat) : Option Reg :=
  let m := (s.fn q).mail
  match o with
  | 0x00 => r32 0
  | 0x04 => r32 (pack [(16, m.code), (24, m.state)])
  | 0x08 => r64 m.arg
  | 0x10 => r32 m.len
  | 0x18 => r64 m.result
  | 0x20 => r64 (s.dpt.svn * two32 + s.dpt.crewSvn)
  | 0x28 => r32 (s.dpt.slot + 2 * b2n s.dpt.fallback)
  | _ =>
    if 0x100 ≤ o && o < 0x120 && o % 8 = 0 then
      let c := s.flash.counters.getD ((o - 0x100) / 8) (0, 0)
      r64 (c.2 * two32 + c.1)
    else if o = 0xF8000 then r64 (s.fn q).cfg.pba
    else if msixWord q o then
      let i := (o - 0xF0000) / 4
      r32 (Tab.get 0 (s.fn q).cfg.table i ^^^ b2n (i % 4 == 3))
    else none

/-! RST (R468, R474). -/

def State.rstCause (s : State) : Nat :=
  pack [(0, s.rst.cause), (8, min 255 s.rst.dptSelf), (16, min 255 s.rst.ckwSelf), (24, min 255 s.rst.seqSelf)]

def State.rstReg (s : State) (o : Nat) : Option Reg :=
  let x := s.rst
  match o with
  | 0x00 => r32 0
  | 0x04 => r32 (pack [(8, x.stage), (12, x.refuge), (16, b2n x.safeOff), (24, x.result)])
  | 0x08 => r32 s.rstCause
  | 0x0C => r32 (x.raw * 256 + x.raw / 16)
  | 0x10 => r32 (pack [(4, x.prevStage), (8, x.attempts)])
  | _ => none

/-! FLT (R493). -/

/-- FLT_STATUS of a ring. -/
def FltRing.status (x : FltRing) : Nat :=
  pack [(0, b2n x.fault), (1, b2n (x.ovEssential + x.ovInfo != 0)), (24, x.hold.length)]

/-- FLT_LOST of a ring. -/
def FltRing.lostReg (x : FltRing) : Nat := pack [(0, x.lastClass), (16, x.firstClass), (32, x.essential), (48, x.info)]

/-- The whole records of the Pit Log. -/
def State.pitNewest (s : State) : Nat := match s.flash.pit.getLast? with | some r => r.sq | none => 0
def State.pitOldest (s : State) : Nat := match s.flash.pit.head? with | some r => r.sq | none => 0

/-- FLT_PIT_INFO. -/
def State.pitInfo (s : State) : Nat :=
  pack [(0, s.pitNewest % 2 ^ 52), (62, b2n s.flt.pitMissing), (63, b2n s.flt.pitReady)]

/-- 8 bytes of a window at an aligned offset. DESIGN CHOICE (log entry 91): R493 gives these windows no register width; each aligned 8 bytes act as one 64-bit register under R7. -/
def winReg (d : List Byte) (o : Nat) : Option Reg := if o % 8 = 0 then r64 (u64 d o) else none

/-- The device ring and the Pit Log, which only the primary physical function sees. -/
def State.fltDevReg (s : State) (o : Nat) : Option Reg :=
  let d := s.flt.ring
  match o with
  | 0x300 => r32 d.head
  | 0x304 => r32 d.tail
  | 0x308 => r32 d.status
  | 0x310 => rc64 d.lostReg
  | 0x318 => r64 s.flt.pitSel
  | 0x320 => r64 s.pitInfo
  | 0x328 => r64 (s.pitOldest % 2 ^ 52)
  | _ =>
    if 0x4000 ≤ o && o < 0x5000 then winReg s.flt.pitData (o - 0x4000)
    else if 0x40000 ≤ o && o < 0x80000 then
      let i := (o - 0x40000) / 64
      winReg (Tab.get [] s.flt.dring i) (o % 64)
    else none

/-- The per-partition registers. -/
def State.fltPartReg (s : State) (p o : Nat) : Option Reg :=
  let x := s.part p
  match o with
  | 0x00 => r64 x.fltGrp.shadow.base
  | 0x08 => r32 x.fltGrp.shadow.size
  | 0x0C => r32 x.fltGrp.reg
  | 0x10 => r32 x.flt.head
  | 0x14 => r32 x.flt.tail
  | 0x18 => r32 x.flt.status
  | 0x20 => rc64 x.flt.lostReg
  | 0x28 => r64 x.flt.firstTime
  | 0x30 => r64 x.flt.lastTime
  | 0x108 => r32 x.lampFrom
  | _ =>
    if 0x40 ≤ o && o < 0xC0 && o % 8 = 0 then
      let r := s.ring p ((o - 0x40) / 16)
      r64 (if o % 16 = 0 then r.snapRetired else r.snapInstr)
    else none

def State.fltReg (s : State) (w : Who) (o : Nat) : Option Reg :=
  let l := (s.fn w.q).lamp
  if o = 0x100 then r32 0
  else if o = 0x104 then r32 (pack [(16, l.code), (28, l.state)])
  else if 0x8000 ≤ o && o < 0xC000 then winReg l.data (o - 0x8000)
  else if o ≥ 0x300 then (if s.isPrimaryPf w.q then s.fltDevReg o else none)
  else match w.view with | some p => s.fltPartReg p o | none => none

/-! DBG (R86 to R90). -/

def GangMode.num : GangMode → Nat
  | .running => 1 | .halting => 2 | .halted => 3 | .stepping => 4

/-- DBG_GANG_STATUS. -/
def State.gangStatus (s : State) (q : Nat) : Nat :=
  let d := (s.fn q).dbg
  let x := s.gang d.gangSel
  let halted := x.live && x.mode == .halted
  let paths := (x.liveLanes.map fun l => (x.lane l).pc).eraseDups.length
  pack [(4, if x.live then x.mode.num else 0), (8, if halted then paths else 0), (16, if halted then x.cause else 0), (24, d.result)]

/-- DBG_GANG_INFO. -/
def State.gangInfo (s : State) (g : Nat) : Nat :=
  let x := s.gang g
  if x.live then pack [(0, g % 16), (16, coreOf g), (26, g / 16 % 4), (28, x.k.part), (32, x.k.vregs)] else 0

def State.dbgReg (s : State) (q o : Nat) : Option Reg :=
  let d := (s.fn q).dbg
  let x := s.gang d.gangSel
  let halted := x.live && x.mode == .halted
  match o with
  | 0x00 => r32 d.gangSel
  | 0x04 => r32 0
  | 0x08 => r32 (s.gangStatus q)
  | 0x0C => r32 s.trapStop
  | 0x10 => r32 (if halted then x.exited else 0)
  | 0x14 => r32 (if halted then maskOf ((List.range 32).filter fun l => (x.lane l).wait != .none) else 0)
  | 0x18 => r32 d.regSel
  | 0x20 => r64 d.regData
  | 0x28 => r64 (s.gangInfo d.gangSel)
  | _ => if 0x100 ≤ o && o < 0x200 && o % 8 = 0 then r64 (if halted then (x.lane ((o - 0x100) / 8)).pc else 0) else none

/-! The whole of BAR0. -/

/-- The register at an offset of BAR0 as an access sees it (R18, R19); JTAG reaches DBG alone, after an unlock (R431). -/
def State.reg (s : State) (w : Who) (off : Nat) : Option Reg :=
  let b := off / 2 ^ 20
  let o := off % 2 ^ 20
  let part := fun (f : Nat → Nat → Option Reg) => match w.view with | some p => f p o | none => none
  if b > 14 || !s.rel (blockDomain b) || (w.q = 32 && (b != 14 || s.dpt.unlock = 0)) then none
  else
    match b with
    | 0 => s.devReg w o
    | 1 => s.srvReg o
    | 2 => part s.cmdReg
    | 3 => part s.xltReg
    | 4 => s.memReg o
    | 5 => part s.plcReg
    | 6 => s.timReg w.q o
    | 7 => s.fabReg o
    | 8 => part s.redReg
    | 9 => s.hstReg o
    | 10 => part s.ckwReg
    | 11 => s.dptReg w.q o
    | 12 => s.rstReg o
    | 13 => s.fltReg w o
    | _ => s.dbgReg w.q o

/-- What a read of 4 bytes, or of the 8 bytes of a 64-bit register, returns (R7); reserved offsets read zero (R18). -/
def State.peek (s : State) (w : Who) (off size : Nat) : Nat :=
  match s.reg w off with
  | some r => if size = 4 then r.val % two32 else r.val
  | none =>
    if off % 8 = 4 && size = 4 then
      match s.reg w (off - 4) with
      | some r => if r.size = 8 then r.val / two32 else 0
      | none => 0
    else 0

end Sys2Proof.Machine
end

