-- ==== Sys2Proof/Machine/Lamp.lean ====
section
/-!
DEFINITION. Faults held, the Pit Log, Lamp Check and the sideband (R481, R484 to R497).
-/

namespace Sys2Proof.Machine

/-! The Pit Log in flash (R484 to R488). -/

/-- A record's 4 KiB (R484). -/
def PitRec.bytes (r : PitRec) : List Byte :=
  let d := padTo 0xFE0 (ascii "PITL" ++ leBytes 2 0x0100 ++ leBytes 2 r.kind ++ leBytes 8 r.sq ++ leBytes 4 r.boot ++
    leBytes 1 r.source ++ leBytes 1 r.stage ++ leBytes 2 r.body.length ++ leBytes 8 r.time ++ leBytes 8 r.cycles ++
    leBytes 4 r.tstatus ++ leBytes 20 0 ++ r.body)
  d ++ padTo 32 (Config.sha256 d)

/-- The Deputy, or the boot ROM, writes a record (R486): the first record of a sector that holds old ones erases its 16. -/
def State.pitWrite (s : State) (r : PitRec) : State :=
  let n := s.flash.pitSeq
  let old := if n % 16 = 0 && n ≥ 4096 then s.flash.pit.filter fun x => decide (x.sq > n - 4096 + 15) else s.flash.pit
  let s := { s with flash := { s.flash with pit := old ++ [{ r with sq := n }], pitSeq := n + 1 } }
  if pitLimited r.kind then
    { s with flt := { s.flt with writes := (s.flt.writes.filter fun w => decide (s.clk < w + 60000000000)) ++ [s.clk] } }
  else s

/-- The SUMMARY of records not written, per KIND 0 to 12 (R485, R487). -/
def State.pitSummary (s : State) : PitRec := s.pitRec 0x0C 2 ((List.range 13).flatMap fun k => leBytes 4 (Tab.get 0 s.flt.skipped k))

/-- PIT_LOG_WRITE (R486, R487): the oldest queued record that may be written; a SUMMARY that is due goes first. -/
def execPitLogWrite (s : State) : Host.Outcome State Fault Refusal :=
  if !s.dpt.up then .next s
  else if !s.flt.skipped.isEmpty && !s.pitFull then
    .next { s.pitWrite s.pitSummary with flt := { (s.pitWrite s.pitSummary).flt with skipped := [] } }
  else
    match s.flt.queue.find? fun r => !(pitLimited r.kind && s.pitFull) with
    | none => .next s
    | some r => .next ({ s with flt := { s.flt with queue := s.flt.queue.erase r } }.pitWrite r)

/-- A record of the Pit Log by SEQ. -/
def State.pitFind (s : State) (sq : Nat) : Option PitRec := s.flash.pit.find? fun r => r.sq == sq

/-- FLT_PIT_SEL (R488). -/
def State.pitSelect (s : State) (v : Nat) : State :=
  let r := s.pitFind v
  { s with flt := { s.flt with
      pitSel := v, pitReady := r.isSome, pitMissing := r.isNone
      pitData := match r with | some x => x.bytes | none => [] } }

def execFltPitSel (q v : Nat) (s : State) : Host.Outcome State Fault Refusal :=
  if s.hears q && s.rel 1 && s.isPrimaryPf q then .next (s.pitSelect (v % two64)) else .next s

/-! Copy engines whose fault records wait (R251, R482). -/

/-- Tries to write an engine's COPY_PAGE_FAULT record. -/
def State.engineRec (s : State) (e : Nat) : State :=
  let x := s.engine e
  match x.busy with
  | none => s
  | some (p, k) =>
    if !x.recWait then s
    else
      let r := frec 0x0003 0 0 p 2 e s.tim.now x.va (leBytes 2 x.asid ++ leBytes 1 (b2n x.write) ++ leBytes 1 (b2n x.perm) ++
        leBytes 4 (s.cmd p k).seq)
      let s := s.flushRing (some p)
      if !(s.part p).flt.hold.isEmpty then s
      else
        match s.fltTry p r with
        | (true, s) => s.updEngine e fun x => { x with recWait := false }
        | (false, s) => s

/-! Lamp Check (R489 to R492). -/

/-- The header of a summary. -/
def State.lampHeader (s : State) (p path : Nat) : List Byte :=
  let c := s.tim.cad
  let live := c.live.getD {}
  padTo 256 (
    ascii "LAMP" ++ leBytes 2 0x0100 ++ leBytes 1 p ++ leBytes 1 path ++ leBytes 8 s.tim.now ++ leBytes 8 s.sv.serial ++
    padTo 32 s.sv.hash ++ leBytes 4 s.devStatus ++ leBytes 4 s.timStatus ++ leBytes 4 s.rstCause ++ leBytes 4 s.flash.boot ++
    leBytes 4 (s.part p).captures ++ leBytes 4 (s.portStatus (s.sv.port p)) ++ leBytes 4 s.srvStatus ++ leBytes 4 s.srv.drain ++
    leBytes 8 c.periods ++ leBytes 4 live.period ++ leBytes 4 live.count ++ leBytes 4 c.reg)

/-- The partition state. -/
def State.lampPart (s : State) (p : Nat) : List Byte :=
  padTo 192 (
    padTo 16 (leBytes 2 (s.sv.minCores p) ++ leBytes 2 (s.sv.maxCores p) ++ leBytes 1 (s.sv.share p) ++ leBytes 1 (s.sv.levels p) ++
      leBytes 2 (s.sv.scratch p) ++ leBytes 4 (s.part p).plc.grant) ++
    leBytes 4 (s.xltEpoch p) ++ leBytes 8 (s.faultPending p) ++ leBytes 8 (s.redActive p) ++ leBytes 4 (s.ckwStatus p) ++
    leBytes 8 (s.part p).en.sq ++ leBytes 4 (s.part p).lampFrom)

/-- A ring. -/
def State.lampRing (s : State) (p n : Nat) : List Byte :=
  let r := s.ring p n
  let loops := r.frames.reverse.filterMap fun f => match f with | .loop _ _ _ _ i => some i | _ => none
  padTo 128 (
    leBytes 8 r.grp.live.base ++ leBytes 4 r.grp.live.size ++ leBytes 4 r.grp.reg ++
    leBytes 4 (pack [(0, b2n r.enable), (2, b2n r.spaceIrq)]) ++ leBytes 4 (s.ringStatus p n) ++ leBytes 4 r.head ++ leBytes 4 r.tail ++
    leBytes 8 r.retired ++ leBytes 8 r.instr ++ leBytes 4 (s.ringAge p n) ++ leBytes 4 r.guiltySeq ++
    leBytes 8 (pack [(0, r.err.count), (16, r.err.code), (24, r.err.op), (32, r.err.sq)]) ++
    leBytes 8 r.snapRetired ++ leBytes 8 r.snapInstr ++ (loops.take 4).flatMap (leBytes 4))

/-- The sump, fault ring and energy ring. -/
def State.lampSides (s : State) (p : Nat) : List Byte :=
  let x := s.part p
  padTo 256 (
    padTo 0x20 (leBytes 8 x.sump.live.base ++ leBytes 4 x.sump.live.size ++ leBytes 4 x.sump.reg ++ leBytes 4 x.sumpHead ++
      leBytes 4 x.sumpTail ++ leBytes 4 x.sumpLost) ++
    padTo 0x38 (leBytes 8 x.fltGrp.live.base ++ leBytes 4 x.fltGrp.live.size ++ leBytes 4 x.fltGrp.reg ++ leBytes 4 x.flt.head ++
      leBytes 4 x.flt.tail ++ leBytes 4 x.flt.status ++ leBytes 8 x.flt.lostReg ++ leBytes 8 x.flt.firstTime ++ leBytes 8 x.flt.lastTime) ++
    leBytes 8 x.en.ering.live.base ++ leBytes 4 x.en.ering.live.size ++ leBytes 4 x.en.ering.reg ++ leBytes 4 x.en.head ++
    leBytes 4 x.en.tail)

/-- The open tallies from FLT_LAMP_FROM. -/
def State.lampTallies (s : State) (p : Nat) : List Byte :=
  let f := max 1 (s.part p).lampFrom
  let ts := (s.part p).en.tallies.filter fun e => e.2.opened && decide (f ≤ e.1)
  padTo 2048 ((ts.take 256).flatMap fun e => leBytes 4 e.1 ++ leBytes 1 e.2.ring ++ leBytes 3 0)

/-- The sump records not yet consumed. -/
def State.lampSump (s : State) (p : Nat) : List Byte :=
  let x := s.part p
  let b := x.sump.live
  let n := if b.size = 0 then 0 else min 32 (modSub two32 x.sumpTail x.sumpHead)
  padTo 2048 ((List.range n).flatMap fun i =>
    match s.vread tlbNone p (b.base / 2 ^ 56) (b.base % 2 ^ 56 + 64 * ((x.sumpHead + i) % b.size)) 64 with
    | some d => d.1
    | none => leBytes 64 0)

/-- A partition's summary (R490): its header alone for a partition that is not valid, or in Refuge. -/
def State.lamp (s : State) (p path : Nat) : List Byte :=
  let x := s.part p
  if !s.sv.valid p || s.rst.refuge != 0 then padTo 16384 (s.lampHeader p path)
  else
    let live := s.tim.cad.live.getD {}
    let nodes := x.graphs.foldl (fun n e => e.2.vers.foldl (fun n v => n + v.nodes.length) n) 0
    padTo 16384 (
      s.lampHeader p path ++ slice (s.sv.body 1) (64 * p) 64 ++ s.lampPart p ++ (List.range 8).flatMap (s.lampRing p) ++ s.lampSides p ++
      (List.range 64).flatMap (fun i => leBytes 2 (popc 576 (s.stg p i).district)) ++
      padTo 128 (leBytes 4 x.plc.tensors.length ++ leBytes 2 x.plc.conveyors.length ++ leBytes 2 x.graphs.length ++ leBytes 4 nodes ++
        leBytes 4 (s.plcStatus p) ++ leBytes 8 (s.freePages p)) ++
      (List.range 64).flatMap (fun i =>
        if s.ownsJob p i then leBytes 8 (s.job i).reg ++ leBytes 8 (s.job i).stepReg else leBytes 16 0) ++
      s.lampTallies p ++ s.lampSump p ++
      (List.range 256).flatMap (fun k => leBytes 8 (if k < live.count then live.slot k else 0)) ++
      (List.range 256).flatMap (fun i =>
        let g := (s.seam p i).grp.live
        leBytes 8 (g.chans / 64 * 64 + g.stride % 16 + 16 * b2n (s.seamPinned p i))) ++
      (List.range 256).flatMap (fun a =>
        let g := Tab.get { live := {}, shadow := {} } x.adits a
        if s.aditOwn p a then leBytes 5 (g.live.base / 65536) ++ leBytes 5 (g.live.limit / 65536) ++ leBytes 4 g.live.target ++ leBytes 2 g.count
        else leBytes 16 0))

/-- A summary is taken: CAPTURES counts it. -/
def State.capture (s : State) (p path : Nat) : List Byte × State :=
  let s := s.updPart p fun x => { x with captures := wrapAdd two32 x.captures 1 }
  (s.lamp p path, s)

/-- GO in FLT_LAMP_CTRL (R492). -/
def State.lampGo (s : State) (q p : Nat) : State :=
  s.updFn q fun f =>
    let l := f.lamp
    if l.state = 1 then { f with lamp := { l with code := 2 } }
    else if !(if q = 33 then s.sv.parts else s.bound q).contains p then { f with lamp := { l with state := 3, code := 1, part := p } }
    else { f with lamp := { state := 1, code := 0, part := p, data := [] } }

def execLampCapture (q p : Nat) (s : State) : Host.Outcome State Fault Refusal :=
  if s.hears q && s.rel 1 && q != 32 then .next (s.lampGo q (p % 16)) else .next s

/-- LAMP_CAPTURE_END (R492, R497): an apply is waited for. -/
def execLampCaptureEnd (q : Nat) (s : State) : Host.Outcome State Fault Refusal :=
  let l := (s.fn q).lamp
  if l.state = 1 && s.srv.state != .applying then
    let (d, s) := s.capture l.part 2
    .next (s.updFn q fun f => { f with lamp := { f.lamp with state := 2, code := 0, data := d } })
  else .next s

/-! The sideband (R494 to R496). -/

/-- A response. -/
def State.sideband (s : State) (cmd status : Nat) (d : List Byte) : State :=
  { s with flt := { s.flt with sbRsp := leBytes 1 (cmd + 0x80) ++ leBytes 1 status ++ d } }

/-- The sideband answers: its controller runs and its outputs are enabled (R459, R467). -/
def State.sbOn (s : State) : Bool := s.rel 1 && s.rst.sbOut

/-- Pit Log and Lamp Check reads are served (R495). -/
def State.sbOpen (s : State) : Bool := s.rst.refuge != 0 || s.sv.pitOpen

def execPitInfo (s : State) : Host.Outcome State Fault Refusal :=
  if !s.sbOn then .next s
  else if !s.sbOpen then .next (s.sideband 1 2 [])
  else .next (s.sideband 1 0 (leBytes 8 s.pitNewest ++ leBytes 8 s.pitOldest))

/-- PIT_READ (R494, R496): a read at OFFSET 0 takes a copy, which later offsets of the same SEQ read. -/
def execPitRead (sq off len : Nat) (s : State) : Host.Outcome State Fault Refusal :=
  if !s.sbOn then .next s
  else if !s.sbOpen then .next (s.sideband 2 2 [])
  else
    let kept := match s.flt.sbPit with | some (n, d) => if n = sq && off != 0 then some d else none | none => none
    match kept.or ((s.pitFind sq).map PitRec.bytes) with
    | none => .next (s.sideband 2 1 [])
    | some d =>
      if len = 0 || len > 256 || off + len > 4096 then .next (s.sideband 2 4 [])
      else
        let s := if off = 0 then { s with flt := { s.flt with sbPit := some (sq, d) } } else s
        .next (s.sideband 2 0 (slice d off len))

/-- LAMP_READ (R494, R495, R497). -/
def execLampRead (p : Nat) (fresh : Bool) (off len : Nat) (s : State) : Host.Outcome State Fault Refusal :=
  if !s.sbOn then .next s
  else if !s.sbOpen then .next (s.sideband 3 2 [])
  else if p > 15 || len = 0 || len > 256 || off + len > 16384 then .next (s.sideband 3 4 [])
  else if fresh then
    if s.srv.state = .applying then .next (s.sideband 3 3 [])
    else
      let (d, s) := s.capture p 3
      .next ({ s with flt := { s.flt with sbLamp := d } }.sideband 3 0 (slice d off len))
  else if s.flt.sbLamp.isEmpty || u8 s.flt.sbLamp 6 != p then .next (s.sideband 3 1 [])
  else .next (s.sideband 3 0 (slice s.flt.sbLamp off len))

end Sys2Proof.Machine
end

