-- ==== Sys2Proof/Machine/Requests.lean ====
section
/-!
DEFINITION. Operations that a register write requests: debugging one gang (R84 to R94), Survey operations (R45, R46), the
Deputy mailbox (R427), reset operations (R458, R464, R465, R473, R474), rings (R287, R288, R316, R317).
-/

namespace Sys2Proof.Machine

/-! Debugging one gang. -/

/-- Who may operate on a gang of partition p (R85): JTAG under an unlock with the JTAG bit alone (DESIGN CHOICE, log entry 94: whether it
needs the host-debug bit as well is open), else the primary physical function or p's own. -/
def State.dbgMay (s : State) (q p : Nat) : Bool :=
  if q = 32 then bit s.dpt.unlock p && s.sv.jtagDebug p
  else s.sv.hostDebug p && (s.isPrimaryPf q || (s.bound q).contains p)

def State.dbgResult (s : State) (q r : Nat) : State := s.updFn q fun f => { f with dbg := { f.dbg with result := r } }

/-- An operation on the selected gang (R87 to R89): the checks that every operation shares, then `f`, which gives its RESULT. -/
def State.dbgOp (s : State) (q : Nat) (f : Nat → Gang → State → Nat × State) : State :=
  let d := (s.fn q).dbg
  let g := d.gangSel % 65536
  let x := s.gang g
  if g > 36863 then s.dbgResult q 2
  else if x.live && (x.mode == .halting || x.mode == .stepping) then s.dbgResult q 1
  else if x.live && !s.dbgMay q x.k.part then s.dbgResult q 3
  else
    let (r, s) := f g x s
    s.dbgResult q r

/-- A write to DBG reaches the block (R20, R85, R431). -/
def State.dbgWrite (s : State) (q : Nat) (f : State → State) : State :=
  if !s.hears q || !s.rel 1 then s
  else if q = 32 then (if s.dpt.unlock = 0 then s else f s)
  else if s.mayGlobal q then f s else s.foreign

def semHalt (q : Nat) (s : State) : State :=
  s.dbgOp q fun g x s =>
    if !x.live then (6, s)
    else if x.mode = .halted then (0, s)
    else
      let s : State := if q < 32 then { s with dpt := { s.dpt with dbgHalted := true } } else s
      (0, s.updGang g fun x => { x with mode := .halting, dbgBy := q })

/-- The gang goes back to the scheduler with every age zero (R94). -/
def Gang.resume (x : Gang) : Gang :=
  { x with
    mode := .running, cause := 0, trap := none, stepPath := 0, mWait := 0
    lanes := Tab.adjust {} (fun _ l => { l with age := 0 }) x.lanes }

def semResume (q : Nat) (s : State) : State :=
  s.dbgOp q fun g x s => if x.live && x.mode == .halted then (0, s.updGang g Gang.resume) else (4, s)

/-- The path of a step (R92): the scheduler's by age, or that of a lane; none when it is not ready. -/
def State.stepFor (s : State) (g : Nat) (lane : Option Nat) : Option Nat :=
  let x := s.gang g
  let p := match lane with
    | none => (x.oldest (s.lanesBy g (· != Ready.no))).map x.pathOf
    | some l => if x.runnable l then some (x.pathOf l) else none
  p.filter fun p => s.pathReady g p == Ready.yes

/-- STEP_GANG and STEP_PATH begin: the gang is STEPPING until the instruction issues and completes. -/
def semStepStart (q : Nat) (lane : Option Nat) (s : State) : State :=
  s.dbgOp q fun g x s =>
    if !(x.live && x.mode == .halted) then (4, s)
    else
      match s.stepFor g lane with
      | none => (5, s)
      | some p => (0, s.updGang g fun x => { x with mode := .stepping, dbgBy := q, stepPath := p, mWait := 0, trap := none, cause := 0 })

/-- FAULT (R94): a gang halted on a trap takes the course of R83. Its record has been written (R497). -/
def semFault (q : Nat) (s : State) : State :=
  s.dbgOp q fun _ x s =>
    if x.live && x.mode == .halted && x.cause != 0 then (0, s.guilty x.k.part x.k.ring 1) else (9, s)

/-- KIND, INDEX and LANE of DBG_REG_SEL name a register (R90). -/
def dbgRegOk (x : Gang) (kind idx : Nat) : Bool :=
  match kind with
  | 0 => decide (idx < x.k.vregs)
  | 1 => decide (idx < 64)
  | 2 => decide (idx < 8)
  | 3 => decide (idx < 8)
  | 4 => true
  | _ => false

def semRegRead (q : Nat) (s : State) : State :=
  s.dbgOp q fun _ x s =>
    let v := (s.fn q).dbg.regSel
    let kind := bits v 26 24
    let idx := bits v 23 16
    if !(x.live && x.mode == .halted) then (4, s)
    else if !dbgRegOk x kind idx then (8, s)
    else
      let d := match kind with
        | 0 => (Tab.get 0 x.regs (idx * 32 + v % 32)).toNat
        | 1 => (Tab.get 0 x.uregs idx).toNat
        | 2 => (Tab.get 0 x.preds idx).toNat
        | 3 => (Tab.get 0 x.mdesc idx).toNat
        | _ => x.status
      (0, s.updFn q fun f => { f with dbg := { f.dbg with regData := d } })

def semRegWrite (q : Nat) (s : State) : State :=
  s.dbgOp q fun g x s =>
    let v := (s.fn q).dbg.regSel
    let d := (s.fn q).dbg.regData
    let kind := bits v 26 24
    let idx := bits v 23 16
    if !(x.live && x.mode == .halted) then (4, s)
    else if !dbgRegOk x kind idx then (8, s)
    else (0, s.updGang g fun x =>
      match kind with
      | 0 => x.setReg idx 1 (v % 32) d 0
      | 1 => x.setUni idx 1 d
      | 2 => { x with preds := Tab.set 0 x.preds idx (BitVec.ofNat 32 d) }
      | 3 => { x with mdesc := Tab.set 0 x.mdesc idx (BitVec.ofNat 64 d) }
      | _ => { x with storeErr := bit d 0 })

/-- A write of DBG_LANE_PC[lane] (R93). -/
def semLanePc (q lane v : Nat) (s : State) : State :=
  let g := (s.fn q).dbg.gangSel % 65536
  let x := s.gang g
  if lane < 32 && x.live && x.mode == .halted && s.dbgMay q x.k.part && !bit x.exited lane && v % 8 == 0 && bits v 63 56 == 0
  then s.updGang g fun x => x.updLane lane fun l => { l with pc := v }
  else s

/-- A write of DBG_GANG_CTRL (R88). -/
def State.dbgCtrl (s : State) (q v : Nat) : State :=
  match v % 16 with
  | 0 => s
  | 1 => semHalt q s
  | 2 => semResume q s
  | 3 => semStepStart q none s
  | 4 => semStepStart q (some (bits v 12 8)) s
  | 5 => semRegRead q s
  | 6 => semRegWrite q s
  | 7 => semFault q s
  | _ => s.dbgOp q fun _ _ s => (7, s)

def execHalt (q : Nat) (s : State) : Host.Outcome State Fault Refusal := .next (s.dbgWrite q (semHalt q))
def execResume (q : Nat) (s : State) : Host.Outcome State Fault Refusal := .next (s.dbgWrite q (semResume q))
def execRegRead (q : Nat) (s : State) : Host.Outcome State Fault Refusal := .next (s.dbgWrite q (semRegRead q))
def execRegWrite (q : Nat) (s : State) : Host.Outcome State Fault Refusal := .next (s.dbgWrite q (semRegWrite q))
def execFault (q : Nat) (s : State) : Host.Outcome State Fault Refusal := .next (s.dbgWrite q (semFault q))
def execDbgLanePcWrite (q lane : Nat) (v : DWord) (s : State) : Host.Outcome State Fault Refusal :=
  .next (s.dbgWrite q (semLanePc q lane v.toNat))

/-! Survey operations (R45, R46) and the Deputy mailbox (R427, R428). -/

/-- A mailbox operation ends; a Survey operation that waited behind an update goes on (R434). -/
def State.mailEnd (s : State) (q code : Nat) (result : Nat := 0) : State :=
  let m := (s.fn q).mail
  let up := m.op == 1 && (m.state == 1 || m.state == 2)
  { s with srv := { s.srv with behind := s.srv.behind && !up } }.updFn q fun f => { f with mail := { f.mail with
    state := if code = 0 then 3 else 4, code := code, result := result } }

/-- An operation is running: states 1 to 6. -/
def SrvState.busy : SrvState → Bool
  | .idle => false | .done => false | .failed => false | _ => true

/-- Function q's mailbox holds a pending operation that the Deputy may take: an update not while a Survey operation that came before it
runs (R434). -/
def State.mailReady (s : State) (q : Nat) : Bool :=
  let m := (s.fn q).mail
  m.state == 1 && !(m.op == 1 && s.srv.state.busy && !s.srv.behind)

/-- The Deputy takes the pending mailbox of the lowest function number (R427). -/
def State.mailNext (s : State) : State :=
  if !s.dpt.up || s.dpt.running.isSome then s
  else
    match (List.range 34).find? s.mailReady with
    | some q => { s with dpt := { s.dpt with running := some q } }.updFn q fun f => { f with mail := { f.mail with state := 2 } }
    | none => s

/-- An update waits or runs: a Survey operation that comes now waits in FETCHING (R434). -/
def State.updating (s : State) : Bool :=
  (List.range 34).any fun q => let m := (s.fn q).mail; m.op == 1 && (m.state == 1 || m.state == 2)

/-- A partition's drain is lifted, or ends with the apply (R46, R52). -/
def State.undrain (s : State) : State :=
  { s with
    srv := { s.srv with drain := 0 }
    parts := Tab.adjust {} (fun _ x => { x with draining := false }) s.parts }

/-- An operation ends with a code of R43: the state, the drain, and the Survey interrupt (R404); an update that waited may run (R434). -/
def State.srvEnd (s : State) (code detail : Nat) : State :=
  let s := if s.srv.drain = 0 && !(s.srv.state == .draining || s.srv.state == .waiting) then s else s.undrain
  let s := { s with srv := { s.srv with
    state := if code = 0 then .done else .failed, code := code, detail := detail, op := 0, cand := none, behind := false } }
  (s.raisePrimary 4).mailNext

/-- The Pit Log's SURVEY record (R485): the operation, code, serial, hash, changed partitions and names. -/
def State.srvLog (s : State) (op code serial changed : Nat) (img : Survey) : State :=
  let names := (List.range 16).flatMap fun p => slice (img.body 1) (64 * p + 16) 16
  s.pit 5 2 (leBytes 1 op ++ leBytes 1 code ++ leBytes 6 0 ++ leBytes 8 serial ++ padTo 32 img.hash ++ leBytes 4 changed ++ names)

/-- A write of OP 1 to 4 (R45, R46). The fetch and the checks end with SURVEY_VALIDATION_END. -/
def State.srvCtrl (s : State) (op : Nat) : State :=
  let st := s.srv.state
  if op = 4 then
    (match st with
     | .fetching | .validating | .draining | .waiting => s.srvEnd 0x17 0
     | _ => s)
  else if op = 0 || op > 4 then s
  else if st.busy then { s with srv := { s.srv with code := 1 } }
  else if s.rst.refuge != 0 && op != 3 then { s with srv := { s.srv with op := op } }.srvEnd 0x19 0
  else { s with srv := { s.srv with state := .fetching, code := 0, detail := 0, op := op, cand := none, behind := s.updating } }

def execValidate (q : Nat) (s : State) : Host.Outcome State Fault Refusal := .next (s.globalOp q 1 fun s => s.srvCtrl 1)
def execApply (q : Nat) (s : State) : Host.Outcome State Fault Refusal := .next (s.globalOp q 1 fun s => s.srvCtrl 2)
def execStore (q : Nat) (s : State) : Host.Outcome State Fault Refusal := .next (s.globalOp q 1 fun s => s.srvCtrl 3)
def execAbort (q : Nat) (s : State) : Host.Outcome State Fault Refusal := .next (s.globalOp q 1 fun s => s.srvCtrl 4)

/-! The Deputy mailbox (R427, R428). -/

/-- Who may request an operation (R428). -/
def State.mailMay (s : State) (q op : Nat) : Bool :=
  match op with
  | 4 => true
  | 5 => q < 32 && q % 16 == 0 && q / 16 != s.primary
  | _ => s.isPrimaryPf q

/-- A write of DPT_CTRL (R427, R428). In Refuge only FW_UPDATE and SVN_COMMIT are served; in ROM recovery only a Deputy
FW_UPDATE (R472). -/
def State.mailReq (s : State) (q op slot : Nat) : State :=
  let m := (s.fn q).mail
  if op = 0 then s
  else if m.state = 1 || m.state = 2 then s.updFn q fun f => { f with mail := { f.mail with code := 1 } }
  else
    let s := s.updFn q fun f => { f with mail := { f.mail with op := op, slot := slot, code := 0, result := 0, state := 0 } }
    if op > 6 || (s.dpt.rom && op != 1) then s.mailEnd q 2
    else if s.rst.refuge != 0 && op > 2 then s.mailEnd q 0x0C
    else if !s.mailMay q op then s.mailEnd q 3
    else (s.updFn q fun f => { f with mail := { f.mail with state := 1 } }).mailNext

/-- A function's request reaches its mailbox: DPT is per function (R18). -/
def State.mailOp (s : State) (q op slot : Nat) : State :=
  if s.hears q && s.rel 0 && q != 32 then s.mailReq q op slot else s

def execFwUpdate (q slot : Nat) (s : State) : Host.Outcome State Fault Refusal := .next (s.mailOp q 1 (slot % 2))
def execSvnCommit (q : Nat) (s : State) : Host.Outcome State Fault Refusal := .next (s.mailOp q 2 0)
def execOwnerKey (q : Nat) (s : State) : Host.Outcome State Fault Refusal := .next (s.mailOp q 3 0)
def execRetirePage (q : Nat) (s : State) : Host.Outcome State Fault Refusal := .next (s.mailOp q 4 0)
def execClaimPrimary (q : Nat) (s : State) : Host.Outcome State Fault Refusal := .next (s.mailOp q 5 0)
def execDebugLock (q : Nat) (s : State) : Host.Outcome State Fault Refusal := .next (s.mailOp q 6 0)

/-! Resets (R456 to R466). -/

/-- A firmware update that a full reset cuts short (R428, R475): which region it has begun to write, if any, is a free value; that
region's image is invalid. -/
def State.cutUpdate (s : State) : State :=
  match s.dpt.running with
  | none => s
  | some q =>
    if (s.fn q).mail.op != 1 then s
    else
      let (v, s) := s.draw
      let bad := fun (x : FwImg) => { x with ok := false }
      match v.toNat % 3 with
      | 0 => s
      | 1 => { s with flash := { s.flash with crew := bad s.flash.crew } }
      | _ =>
        if (s.fn q).mail.slot = 0 then { s with flash := { s.flash with dep0 := bad s.flash.dep0 } }
        else { s with flash := { s.flash with dep1 := bad s.flash.dep1 } }

/-- The body of the record that an unlock has ended (R431, R485): what stays unlocked, and counter 3. -/
def unlockBody (mask : Nat) (crew : Bool) (count : Nat) : List Byte :=
  leBytes 1 0 ++ leBytes 1 (b2n crew) ++ leBytes 2 mask ++ leBytes 4 count

/-- A full reset with a cause (R456, R466, R474): flash and the pins survive; the sequencer's cause store, the TAP and a thermal trip
do but for a reset by the power-on detector (R461, R511, R512). D0 is released at once when both pins are high (R457). The end of an
unlock is recorded (R431), but for a loss of power. -/
def State.fullReset (s : State) (cause : Nat) : State :=
  let s := s.cutUpdate
  let s := if cause != 1 && (s.dpt.unlock != 0 || s.dpt.unlockCrew) then s.pitWrite (s.pitRec 8 2 (unlockBody 0 false (s.flash.counters.getD 3 (0, 0)).1)) else s
  let up := s.rst.pwrGood && s.rst.sysRstN
  { State.reset with
    clk := s.clk, free := s.free, uid := s.uid, pending := s.pending, flash := s.flash
    dpt := { nonces := s.dpt.nonces }
    ports := Tab.adjust {} (fun _ x => { perst := x.perst }) s.ports
    rst := {
      pwrGood := s.rst.pwrGood, sysRstN := s.rst.sysRstN, released := b2n up, cause := cause, t0 := s.clk, relAt := s.clk
      causeStore := if cause = 1 then none else s.rst.causeStore
      tripped := cause != 1 && s.rst.tripped, extest := cause != 1 && s.rst.extest } }

/-- The RESULT of a reset operation. -/
def State.rstResult (s : State) (r : Nat) : State := { s with rst := { s.rst with result := r } }

/-- A tier has a resident gang. -/
def State.onTier (s : State) (t : Nat) : List (Nat × Gang) := s.gangs.filter fun e => e.2.live && coreOf e.1 / 144 == t

/-- The compute die of a tier is reset (R464, R466): its cores' caches and arrays are lost, and it takes no gangs until the end. -/
def State.tierReset (s : State) (t : Nat) : State :=
  let s := { s with
    mem := { s.mem with tlbs := Tab.clear (fun u => decide (u < 576) && u / 144 == t) s.mem.tlbs }
    cores := Tab.adjust {} (fun i c => if i / 144 = t then { c with l1 := [], icache := [], units := [], bars := [] } else c) s.cores }
  { s with rst := { s.rst with tiersHeld := if bit s.rst.tiersHeld t then s.rst.tiersHeld else s.rst.tiersHeld + 2 ^ t, result := 0 } }

/-- Every ring with a gang on the tier is marked guilty as the driver would (R464). -/
def State.tierGuilty (s : State) (t : Nat) : State :=
  (s.onTier t).foldl (fun s e => s.guilty e.2.k.part e.2.k.ring 3) s

/-- An operation of RST_CTRL (R474), its KEY given. -/
def State.rstOp (s : State) (op t : Nat) : State :=
  if op = 0 || op > 5 then s
  else if s.rst.powering then s.rstResult 2
  else if op = 5 && s.rst.refuge = 0 then s.rstResult 2
  else if s.rst.refuge != 0 && op != 1 && op != 5 then s.rstResult 2
  else
    match op with
    | 1 => { s with rst := { s.rst with softPending := some (s.rst.softPending.getD s.clk), result := 0 } }
    | 2 => { s with rst := { s.rst with powering := true, result := 0 } }
    | 3 => if (s.onTier t).isEmpty then s.tierReset t else s.rstResult 1
    | 4 => (s.tierGuilty t).tierReset t
    | _ => { s with flash := { s.flash with attempts := 0 } }.fullReset 3

/-- A request that reaches RST (R20, R474): a virtual function's ends with DENIED. -/
def State.rstReq (s : State) (q op t : Nat) : State :=
  s.globalOp q 12 fun s => if q < 32 && q % 16 != 0 then s.rstResult 3 else s.rstOp op t

def execFullReset (q : Nat) (s : State) : Host.Outcome State Fault Refusal := .next (s.rstReq q 1 0)
def execPowerDown (q : Nat) (s : State) : Host.Outcome State Fault Refusal := .next (s.rstReq q 2 0)
def execTierReset (q t : Nat) (s : State) : Host.Outcome State Fault Refusal := .next (s.rstReq q 3 (t % 4))
def execTierForce (q t : Nat) (s : State) : Host.Outcome State Fault Refusal := .next (s.rstReq q 4 (t % 4))
def execExitRefuge (q : Nat) (s : State) : Host.Outcome State Fault Refusal := .next (s.rstReq q 5 0)

/-! Rings. -/

/-- ENABLE of a ring (R288): 1 only for a level of the partition's LEVELS. -/
def State.ringEnable (s : State) (p n : Nat) (on : Bool) : State :=
  s.updRing p n fun r => { r with enable := on && bit (s.sv.levels p) n }

/-- RESUME (R317). -/
def State.ringResume (s : State) (p n : Nat) : State :=
  s.updRing p n fun r => if r.guilty then { r with guilty := false, resumed := true } else r

def execRingEnable (q n : Nat) (on : Bool) (s : State) : Host.Outcome State Fault Refusal :=
  .next (s.partOp (s.who q) 2 fun p s => s.ringEnable p (n % 8) on)
def execGuilty (q n : Nat) (s : State) : Host.Outcome State Fault Refusal :=
  .next (s.partOp (s.who q) 2 fun p s => s.guilty p (n % 8) 3)
def execRingResume (q n : Nat) (s : State) : Host.Outcome State Fault Refusal :=
  .next (s.partOp (s.who q) 2 fun p s => s.ringResume p (n % 8))

/-- A write of `size` bytes to BAR4 (R285, R517): a doorbell page's first 4 bytes; a function not bound to the partition is counted. -/
def State.bar4Write (s : State) (q off size v : Nat) : State :=
  let p := off / 2 ^ 16
  let n := off / 2 ^ 12 % 16
  if off % 4096 != 0 || !(size == 4 || size == 8) || p > 15 || n > 7 || !s.rel 3 then s
  else if (s.bound q).contains p then s.doorbell p n (v % two32)
  else s.dbBad p

def execCmdDoorbell (q p n v : Nat) (s : State) : Host.Outcome State Fault Refusal :=
  if s.hears q && q < 32 then .next (s.bar4Write q (p % 16 * 2 ^ 16 + n % 8 * 2 ^ 12) 4 v) else .next s

end Sys2Proof.Machine
end

