-- ==== Sys2Proof/Machine/Registers.lean ====
section
/-!
DEFINITION. Register accesses (R5 to R7, R18 to R22): reads with their clearing and latching, writes with reserved bits
dropped and halves joined, and what each written register does.
-/

namespace Sys2Proof.Machine

/-- Keeps the bits of v inside the fields [hi:lo] (R5). -/
def keepBits (v : Nat) (fs : List (Nat × Nat)) : Nat := fs.foldl (fun a f => a + bits v f.1 f.2 * 2 ^ f.2) 0

/-! Reads. -/

/-- An RC register clears (R6). -/
def State.regClear (s : State) (w : Who) (off : Nat) : State :=
  let b := off / 2 ^ 20
  let o := off % 2 ^ 20
  match b, w.view with
  | 0, _ => { s with foreignWr := 0 }
  | 4, _ => s.updMem fun m => if o = 8 then { m with ceTotal := 0 } else if o = 0xC then { m with ueTotal := 0 } else { m with guardFixes := 0 }
  | 6, _ => { s with tim := { s.tim with steps := 0 } }
  | 7, _ =>
    let s : State := { s with free := s.free + 1 }
    if o = 0x10 then s.updFab fun x => { x with noRoute := 0, ttl := 0, badType := 0, link := 0 }
    else s.updFabPort ((o - 0x1000) / 32) fun x => { x with
        frames := x.state == .train || x.state == .discover || x.state == .up, replays := 0, downs := 0 }
  | 9, _ => s.updPort (o / 0x100) fun x => { x with retrains := 0, peerRefused := 0, bar2Miss := 0, downs := 0, badVector := 0 }
  | 2, some p => s.updPart p fun x => if o = 0x418 then { x with sumpLost := 0 } else { x with dbBad := 0 }
  | 5, some p => s.updPlc p fun x => if o = 0x10 then { x with moves := 0 } else { x with refusals := 0 }
  | 8, some p => s.updPart p fun x => { x with stale := 0 }
  | 10, some p => s.updPart p fun x => { x with en := { x.en with cutsSkipped := 0 } }
  | 13, v =>
    let clr := fun (x : FltRing) => { x with
      essential := 0, info := 0, firstClass := 0, lastClass := 0, firstTime := 0, lastTime := 0 }
    if o = 0x310 then s.updFring none clr else match v with | some p => s.updFring (some p) clr | none => s
  | _, _ => s

/-- A read of 4 or 8 bytes: its value, the latch of a 64-bit register's high half, and the clearing of an RC register (R7). -/
def State.regRead (s : State) (w : Who) (off size : Nat) : Nat × State :=
  match s.reg w off with
  | some r =>
    let s' := if r.rc then s.regClear w off else s
    if r.size = 8 && size = 4 then
      let s' := s'.updFn w.q fun f => { f with rdLatch := Tab.set none f.rdLatch off (some (r.val / two32)) }
      -- TIM_FRAC is latched with TIM_NOW's low half (R340)
      let s' := if off = 0x0600000 then
        s'.updFn w.q fun f => { f with rdLatch := Tab.set none f.rdLatch 0x0600008 (some s.tim.frac) } else s'
      (r.val % two32, s')
    else if off = 0x0600008 then (r.val, s'.updFn w.q fun f => { f with rdLatch := Tab.set none f.rdLatch off none })
    else (r.val, s')
  | none =>
    if off % 8 = 4 && size = 4 then
      match Tab.get none (s.fn w.q).rdLatch (off - 4) with
      | some v => (v, s.updFn w.q fun f => { f with rdLatch := Tab.set none f.rdLatch (off - 4) none })
      | none => (s.peek w off size, s)
    else (s.peek w off size, s)

/-- A 64-bit register stands at an offset. -/
def State.wideReg (s : State) (w : Who) (off : Nat) : Bool := match s.reg w off with | some r => r.size == 8 | none => false

/-- Reads of 4 bytes, one after another: their value, the first lowest. -/
def State.regReads (w : Who) : Nat → Nat → State → Nat × State
  | 0, _, s => (0, s)
  | n + 1, off, s =>
    let (v, s) := s.regRead w off 4
    let (x, s) := State.regReads w n (off + 4) s
    (v + two32 * x, s)

/-- A read of any width (R517): 8 bytes of a 64-bit register at once; else 4 bytes of each register or half that it touches, and of
them the bytes named. -/
def State.busRead (s : State) (w : Who) (off size : Nat) : Nat × State :=
  if size = 8 && s.wideReg w off then s.regRead w off 8
  else
    let a := off / 4
    let (v, s) := State.regReads w ((off + size + 3) / 4 - a) (4 * a) s
    (v / 2 ^ (8 * (off % 4)) % 2 ^ (8 * size), s)

/-! Writes, block by block: the offset in the block and the whole value. -/

/-- A write of DEV_PART_SEL (R21). -/
def State.setPartSel (s : State) (q v : Nat) : State := s.updFn q fun f => { f with partSel := some (v % 16) }

def State.srvWrite (s : State) (o v : Nat) : State :=
  match o with
  | 0x00 => { s with srv := { s.srv with addr := v / 64 * 64 } }
  | 0x08 => { s with srv := { s.srv with len := v } }
  | 0x0C => s.srvCtrl (v % 8)
  | _ => s

/-- The shadows of a BASE and SIZE group, and its COMMIT (R57, R319). -/
def State.shadowBase (s : State) (p i v : Nat) : State :=
  s.updGroup p i fun g => { g with shadow := { g.shadow with base := v / 4096 * 4096 } }
def State.shadowSize (s : State) (p i v : Nat) : State :=
  s.updGroup p i fun g => { g with shadow := { g.shadow with size := v % 2 ^ 17 } }

/-- CMD_RING_CTRL (R287, R288, R316, R317). -/
def State.ringCtrl (s : State) (p n v : Nat) : State :=
  let s := (s.ringEnable p n (bit v 0)).updRing p n fun r => { r with spaceIrq := bit v 2 }
  let s := if bit v 1 then s.guilty p n 3 else s
  if bit v 3 then s.ringResume p n else s

def State.cmdWrite (s : State) (p o v : Nat) : State :=
  if o < 0x400 then
    let n := o / 0x80
    match o % 0x80 with
    | 0x00 => s.shadowBase p n v
    | 0x08 => s.shadowSize p n v
    | 0x0C => if bit v 0 then s.commitRange p n else s
    | 0x10 => s.ringCtrl p n v
    | _ => s
  else
    match o with
    | 0x400 => s.shadowBase p 8 v
    | 0x408 => s.shadowSize p 8 v
    | 0x40C => if bit v 0 then s.commitRange p 8 else s
    | 0x410 => s.setSumpHead p v
    | _ => s

/-- XLT_FAULT_CTRL (R251, R258): an engine that is not stalled on a fault of the partition is left alone. -/
def State.faultCtrl (s : State) (p v : Nat) : State :=
  let a := bits v 9 8
  if bit (s.faultPending p) (v % 64) && (a == 1 || a == 2) then s.updEngine (v % 64) fun x => { x with action := a } else s

def State.xltWrite (s : State) (p o v : Nat) : State :=
  if o = 4 then s.faultCtrl p v
  else if 0x1000 ≤ o && o < 0x1800 && o % 8 = 0 then
    s.updPart p fun x => { x with as := Tab.set 0 x.as ((o - 0x1000) / 8) (keepBits v [(63, 63), (55, 19)]) }
  else if 0x2000 ≤ o && o < 0x4000 then
    let a := (o - 0x2000) / 32
    let put := fun (f : AditSet → AditSet) => s.updAdit p a fun g => { g with shadow := f g.shadow }
    if !s.aditOwn p a then s
    else
      match o % 32 with
      | 0x00 => put fun g => { g with base := keepBits v [(55, 16)] }
      | 0x08 => put fun g => { g with limit := keepBits v [(55, 16)] }
      | 0x10 => put fun g => { g with target := keepBits v [(29, 8), (2, 0)] }
      | 0x14 => if bit v 0 then s.commitAdit p a else s
      | _ => s
  else if 0x4000 ≤ o && o < 0x4800 && o % 8 = 0 then
    let w := (o - 0x4000) / 8
    match s.sv.inWin w with
    | some d => if d.owner = p then s.updPart p fun x => { x with inBind := Tab.set 0 x.inBind w (keepBits v [(63, 16)]) } else s
    | none => s
  else s

def State.plcWrite (s : State) (p o v : Nat) : State :=
  if o = 0x18 then s.regrant p (v % 4096)
  else if 0x1000 ≤ o && o < 0x2000 then
    let i := (o - 0x1000) / 16
    let put := fun (f : SeamSet → SeamSet) => s.updSeam p i fun x => { x with grp := { x.grp with shadow := f x.grp.shadow } }
    match o % 16 with
    | 0x0 => put fun g => { g with chans := v / 64 * 64 }
    | 0x8 => put fun g => { g with stride := v % 16 }
    | 0xC => if bit v 0 then s.commitSeam p i else s
    | _ => s
  else s

/-- TIM_SET (R330). -/
def State.timSet (s : State) (v : Nat) : State :=
  if s.tim.state = .free then s.correct ((v % two64 : Nat) - (s.tim.now : Int)) else s

def State.timWrite (s : State) (o v : Nat) : State :=
  let tim := fun (f : Tim → Tim) => { s with tim := f s.tim }
  let cad := fun (f : CadSet → CadSet) => { s with tim := { s.tim with cad := { s.tim.cad with shadow := f s.tim.cad.shadow } } }
  match o with
  | 0x10 => State.retime { s with tim := { s.tim with ctrl := v % 8 } }
  | 0x18 => tim fun t => { t with stage := keepBits v [(63, 63), (33, 0)] }
  | 0x20 => tim fun t => { t with delay := v }
  | 0x30 => s.timSet v
  | 0x1000 => cad fun c => { c with period := v % 2 ^ 17 }
  | 0x1004 => cad fun c => { c with count := v % 512 }
  | 0x1008 => if bit v 0 then s.commitCad else s
  | _ =>
    if 0x2000 ≤ o && o < 0x2800 && o % 8 = 0 then
      cad fun c => { c with slots := Tab.set 0 c.slots ((o - 0x2000) / 8) (keepBits v [(63, 28), (23, 0)]) }
    else s

def State.fabWrite (s : State) (o v : Nat) : State :=
  if 0x1000 ≤ o && o < 0x1400 && o % 32 = 0x18 then
    let i := (o - 0x1000) / 32
    let s := if bit v 1 && s.portUp i then s.portHold i 8 else s
    (s.updFabPort i fun x => { x with hold := bit v 0 }).fabEnable 0
  else s

def State.hstWrite (s : State) (o v : Nat) : State :=
  if o < 0x200 && o % 0x100 = 8 then s.updPort (o / 0x100) fun x => { x with hostRid := v }
  else if 0x1000 ≤ o && o < 0x1100 && o % 8 = 0 then
    { s with binds := Tab.set 0 s.binds ((o - 0x1000) / 8) (keepBits v [(63, 63), (59, 48)]) }
  else s

def State.ckwWrite (s : State) (p o v : Nat) : State :=
  match o with
  | 0x00 => s.shadowBase p 10 v
  | 0x08 => s.shadowSize p 10 v
  | 0x0C => if bit v 0 then s.commitRange p 10 else s
  | 0x10 => s.setEringHead p v
  | _ => s

def State.dptWrite (s : State) (q o v : Nat) : State :=
  match o with
  | 0x00 => s.mailReq q (v % 16) (bits v 8 8)
  | 0x08 => s.updFn q fun f => { f with mail := { f.mail with arg := v } }
  | 0x10 => s.updFn q fun f => { f with mail := { f.mail with len := v } }
  | _ =>
    if !msixWord q o then s
    else
      let i := (o - 0xF0000) / 4
      let w := if i % 4 = 3 then v % 2 ^^^ 1 else if i % 4 = 0 then v / 4 * 4 else v
      (s.updFn q fun f => { f with cfg := { f.cfg with table := Tab.set 0 f.cfg.table i w } }).flushMsix q

/-- RST_CTRL (R474): without its KEY a write is ignored. -/
def State.rstWrite (s : State) (q o v : Nat) : State :=
  if o != 0 || bits v 31 24 != 0xA5 then s
  else if q < 32 && q % 16 != 0 then (if v % 16 = 0 || v % 16 > 5 then s else s.rstResult 3)
  else s.rstOp (v % 16) (bits v 9 8)

def State.fltWrite (s : State) (w : Who) (o v : Nat) : State :=
  match o, w.view with
  | 0x100, _ => if bit v 31 then s.lampGo w.q (bits v 19 16) else s
  | 0x300, _ => if s.isPrimaryPf w.q then s.setDringHead v else s
  | 0x318, _ => if s.isPrimaryPf w.q then s.pitSelect v else s
  | 0x00, some p => s.shadowBase p 9 v
  | 0x08, some p => s.shadowSize p 9 v
  | 0x0C, some p => if bit v 0 then s.commitRange p 9 else s
  | 0x10, some p => s.setFltHead p v
  | 0x108, some p => s.updPart p fun x => { x with lampFrom := v }
  | _, _ => s

def State.dbgRegWrite (s : State) (q o v : Nat) : State :=
  let put := fun (f : FnDbg → FnDbg) => s.updFn q fun x => { x with dbg := f x.dbg }
  match o with
  | 0x00 => put fun d => { d with gangSel := v % 65536 }
  | 0x04 => s.dbgCtrl q v
  | 0x0C => { s with trapStop := maskOf ((setBits 16 v).filter fun p => s.sv.hostDebug p) }
  | 0x18 => put fun d => { d with regSel := keepBits v [(26, 16), (4, 0)] }
  | 0x20 => put fun d => { d with regData := v }
  | _ => if 0x100 ≤ o && o < 0x200 && o % 8 = 0 then semLanePc q ((o - 0x100) / 8) v s else s

/-- A write of a whole value at an offset of BAR0 (R18 to R20). A write to a global block by a function that may not is
discarded and counted. -/
def State.regSet (s : State) (w : Who) (off v : Nat) : State :=
  let b := off / 2 ^ 20
  let o := off % 2 ^ 20
  let part := fun (f : State → Nat → Nat → Nat → State) => match w.view with | some p => f s p o v | none => s
  let glob := fun (f : State → State) => if s.mayGlobal w.q then f s else s.foreign
  if b > 14 || !s.rel (blockDomain b) || (w.q = 32 && (b != 14 || s.dpt.unlock = 0)) then s
  else
    match b with
    | 0 => if o = 0x30 then s.setPartSel w.q v else glob id
    | 1 => glob fun s => s.srvWrite o v
    | 2 => part State.cmdWrite
    | 3 => part State.xltWrite
    | 4 => glob id
    | 5 => part State.plcWrite
    | 6 => glob fun s => s.timWrite o v
    | 7 => glob fun s => s.fabWrite o v
    | 8 => s
    | 9 => glob fun s => s.hstWrite o v
    | 10 => part State.ckwWrite
    | 11 => s.dptWrite w.q o v
    | 12 => glob fun s => s.rstWrite w.q o v
    | 13 => s.fltWrite w o v
    | _ => if w.q = 32 then s.dbgRegWrite w.q o v else glob fun s => s.dbgRegWrite w.q o v

/-- A write at an offset is a foreign function's write to a global block (R18, R20), DEV_PART_SEL (R21) and FLT apart. -/
def State.foreignAt (s : State) (w : Who) (off : Nat) : Bool :=
  let b := off / 2 ^ 20
  (b == 0 && off != 0x30 || [1, 4, 6, 7, 9, 12, 14].contains b) && s.rel (blockDomain b) && w.q != 32 && !s.mayGlobal w.q

/-- A write of 4 or 8 bytes (R7): a 64-bit register takes two halves with the high half's write. -/
def State.regWrite (s : State) (w : Who) (off size v : Nat) : State :=
  let is64 := fun (o : Nat) => s.wideReg w o
  let v := v % 2 ^ (8 * size)
  if s.foreignAt w off then s.foreign
  else if size = 4 && is64 off then
    s.updFn w.q fun f => { f with wrLatch := Tab.set none f.wrLatch off (some v) }
  else if size = 4 && off % 8 = 4 && (s.reg w off).isNone && is64 (off - 4) then
    let low := (Tab.get none (s.fn w.q).wrLatch (off - 4)).getD (s.peek w (off - 4) 8 % two32)
    (s.updFn w.q fun f => { f with wrLatch := Tab.set none f.wrLatch (off - 4) none }).regSet w (off - 4) (low + v * two32)
  else s.regSet w off (if is64 off then v else v % two32)

/-- A write of any width (R517): 8 bytes at a 32-bit register are two writes; narrow and unaligned ones change nothing. -/
def State.busWrite (s : State) (w : Who) (off size v : Nat) : State :=
  if off % size != 0 then s
  else
    match size with
    | 4 => s.regWrite w off 4 v
    | 8 => if s.wideReg w off then s.regWrite w off 8 v else (s.regWrite w off 4 v).regWrite w (off + 4) 4 (v / two32)
    | _ => s

/-! Rows. -/

/-- A register access by a function that the device hears. -/
def State.access (s : State) (q : Nat) (f : Who → State → State) : State := if s.hears q then f (s.who q) s else s

/-- What a read returns is kept for its function. -/
def State.readTo (s : State) (q off size : Nat) : State :=
  s.access q fun w s =>
    let (v, s) := s.busRead w off size
    s.updFn q fun f => { f with rdata := v }

/-- READ_CLEAR (R6, R7, R517): a read of any width. -/
def execReadClear (q off size : Nat) (s : State) : Host.Outcome State Fault Refusal := .next (s.readTo q off size)

/-- HALF_READ_LATCH (R7): a 4-byte read. -/
def execHalfReadLatch (q off : Nat) (s : State) : Host.Outcome State Fault Refusal := .next (s.readTo q off 4)

/-- DEV_PART_SEL (R21). -/
def execDevPartSel (q v : Nat) (s : State) : Host.Outcome State Fault Refusal :=
  if s.hears q && s.rel 0 then .next (s.setPartSel q v) else .next s

end Sys2Proof.Machine
end

