-- ==== Sys2Proof/Machine/Copies.lean ====
section
/-!
DEFINITION. Copies (R196, R251, R298 to R300): descriptors, the elements of a transfer one after another, page faults of copy
engines, COPY_INLINE.
-/

namespace Sys2Proof.Machine

/-! Register blocks through a control leaf (R21, R184). -/

def State.ctrlWrite (s : State) (p : Nat) (bar4 : Bool) (off n v : Nat) : State :=
  if bar4 then s.bar4Write (s.sv.fn p) off n v else s.busWrite (s.whoOf p) off n v

def State.ctrlRead (s : State) (p : Nat) (bar4 : Bool) (off n : Nat) : Nat × State :=
  if bar4 then (0, s) else s.busRead (s.whoOf p) off n

/-! Descriptors (R298). -/

/-- A descriptor's fields. SRC_SPACE 5, which no descriptor may carry, stands for the data of a COPY_INLINE. -/
structure Desc where
  src : Nat
  dst : Nat
  srcSpace : Nat
  dstSpace : Nat
  srcSlot : Nat
  dstSlot : Nat
  stream : Nat
  xpose : Nat
  row : Nat
  rows : Nat
  sp : Nat
  dp : Nat
  stage : Nat
  member : Nat
  deriving DecidableEq, Repr

def descOf (b : List Byte) : Desc :=
  { src := u64 b 8, dst := u64 b 16, srcSpace := u8 b 0, dstSpace := u8 b 1, srcSlot := u8 b 2, dstSlot := u8 b 3
    stream := u16 b 4, xpose := u8 b 6, row := u32 b 24, rows := u32 b 28, sp := u64 b 32, dp := u64 b 40
    stage := u8 b 48, member := u16 b 50 }

/-- Where byte `pos` of a transfer comes from and goes to, and the bytes until its row or element ends. A byte of a
transposition of 4-bit elements comes from two rows. -/
def Desc.at_ (d : Desc) (pos : Nat) : Nat × Nat × Nat :=
  let w := fun (a : Nat) => a % two64
  match d.xpose with
  | 0 =>
    let r := pos / d.row
    let j := pos % d.row
    (w (d.src + r * d.sp + j), w (d.dst + r * d.dp + j), d.row - j)
  | 1 =>
    let r := pos / (2 * d.row)
    let e := pos % (2 * d.row)
    (w (d.src + 2 * r * d.sp + e / 2), w (d.dst + e * d.dp + r), 1)
  | k =>
    let z := 2 ^ (k - 2)
    let r := pos / d.row
    let e := pos % d.row / z
    let i := pos % z
    (w (d.src + r * d.sp + e * z + i), w (d.dst + e * d.dp + r * z + i), z - i)

/-- The cores of a stage's district, ascending. -/
def State.districtCores (s : State) (p i : Nat) : List Nat := setBits 576 (s.stg p i).district

/-- L2 scratch that launches and copies may address: the part outside the placement grant (R229, R269). -/
def State.scratchOpen (s : State) (p : Nat) : Nat := s.scratchSize p - s.grantSize p

/-- The last byte after the highest one that a side of a transfer touches. -/
def Desc.srcEnd (d : Desc) : Nat := if d.row = 0 || d.rows = 0 then 0 else d.src + (d.rows - 1) * d.sp + d.row
def Desc.dstEnd (d : Desc) : Nat :=
  if d.row = 0 || d.rows = 0 then 0
  else
    match d.xpose with
    | 0 => d.dst + (d.rows - 1) * d.dp + d.row
    | 1 => d.dst + (2 * d.row - 1) * d.dp + d.rows / 2
    | k => let z := 2 ^ (k - 2); d.dst + (d.row / z - 1) * d.dp + d.rows * z

/-- The code with which a descriptor is refused (R294, R298), or 0. -/
def State.descCode (s : State) (p : Nat) (b : List Byte) : Nat :=
  let d := descOf b
  let ws := d.srcSpace == 0 || d.dstSpace == 0
  let n := (s.districtCores p d.stage).length
  let lim := fun (space last : Nat) =>
    (space == 0 && decide (last > 0x180000)) || (space == 2 && decide (last > s.scratchOpen p))
  let slotOff := fun (space slot : Nat) => (space == 1 || space == 3 || space == 4) && !s.asOn p slot
  if d.srcSpace > 4 || d.dstSpace > 4 || d.stream ≥ 4096 || d.xpose > 4 || u8 b 7 != 0 || u8 b 49 != 0 || !zeroAt b 52 12 ||
     (d.srcSpace == 0 && d.dstSpace == 0) || (d.xpose != 0 && d.srcSpace != 1) ||
     (d.xpose ≥ 3 && d.row % 2 ^ (d.xpose - 2) != 0) || (d.xpose == 1 && d.rows % 2 != 0) then 0x01
  else if ws && (d.stage > 63 || !(s.stg p d.stage).declared) then 0x02
  else if slotOff d.srcSpace d.srcSlot || slotOff d.dstSpace d.dstSlot then 0x02
  else if ws && (if d.member = 0xFFFF then d.srcSpace == 0 else decide (d.member ≥ n)) then 0x01
  else if lim d.srcSpace d.srcEnd || lim d.dstSpace d.dstEnd then 0x01
  else 0

/-! The two ends of an element. -/

/-- The TLB of the engine that a descriptor runs on (R246). -/
def CopyJob.tlb (j : CopyJob) : Nat := match j.engine with | some e => tlbEngine e | none => tlbNone

/-- Where an end of a copy lies: its places, or why the engine faults (R251): whether for want of permission. -/
def State.copyEnd (s : State) (u p : Nat) (d : Desc) (space slot a : Nat) (wr : Bool) : Except Bool (List Loc) :=
  let perm := fun (x : Xl) => if wr then x.w else x.r
  match space with
  | 0 =>
    let cs := s.districtCores p d.stage
    .ok ((if d.member = 0xFFFF then cs else (cs.drop d.member).take 1).map fun c => .ws c a)
  | 2 => .ok [.l2s p a]
  | 4 =>
    match s.aditAt p a with
    | none => .error false
    | some (w, x) =>
      if s.aditPerm w x (if wr then 1 else 0) then .ok [.adit p w (bits x.target 29 16) (bits x.target 15 8) (a - x.base)] else .error true
  | _ =>
    match s.xlate u p slot a with
    | none => .error false
    | some x =>
      let fits := match x.loc with | .host _ _ _ => space == 3 | .dev _ | .ctrl _ _ => space == 1 | _ => false
      if fits && perm x then .ok [x.loc] else .error true

/-- A place is a register block. -/
def Loc.isReg : Loc → Bool
  | .ctrl _ _ => true
  | _ => false

/-- Bytes that may move at once from address a of an end: to the end of its 128-byte line, or the largest aligned access of a
register (R517). -/
def Loc.reach (a : Nat) : Loc → Nat
  | .ctrl _ off => if off % 8 = 0 then 8 else if off % 4 = 0 then 4 else if off % 2 = 0 then 2 else 1
  | .adit _ _ _ _ off => 128 - off % 128
  | _ => 128 - a % 128

/-- Poison of n bytes held on the device. -/
def State.locPoison (s : State) (n : Nat) : Loc → Bool
  | .ws c a => s.wsPoison c a n
  | .l2s p a => s.l2sPoison p a n
  | .dev a => s.poisonAt a
  | _ => false

/-- Reads n bytes held on the device for a copy: the bytes, their poison, and what the reading does. -/
def State.getLoc (s : State) (r : Req) (n : Nat) (l : Loc) : List Byte × Bool × State :=
  match l with
  | .ws c a => (s.wsRead c a n, s.wsPoison c a n, s.charge r.part r.tally 5 (ceilDiv n 16))
  | .l2s p a =>
    let s := s.scratchMeet p a n
    (s.l2sRead p a n, s.l2sPoison p a n, s.charge r.part r.tally 6 1)
  | .dev a =>
    let s := s.homeRead r a
    (s.devRead a n, s.poisonAt a, s)
  | .ctrl b off =>
    let (v, s) := s.ctrlRead r.part b off n
    (leBytes n v, false, s)
  | _ => (leBytes n 0, true, s)

/-- Writes a copy's bytes to one place (R196, R299): none when an adit write must wait (R368, R369). -/
def State.copyPut (s : State) (p k idx addr : Nat) (d : List Byte) (poison : Bool) (l : Loc) : Option State :=
  let r := s.req p (s.cmdTally p k) (if (s.cmd p k).op = 0x05 then 2 else 1)
  if poison && l.outside then some (s.copyFail p k idx 0x04 addr)
  else
    match l with
    | .adit q w dev far off =>
      if !s.reachable dev then some (s.copyLost p k idx addr (elements addr d.length))
      else
        (s.aditSend q r.tally 0x11 w dev far off d.length 0 0 d
          (.copy p k idx [] addr (elements addr d.length) (s.part p).epoch)).map fun e =>
            e.2.updCmd p k fun c => { c with awaited := c.awaited + 1 }
    | .host i _ _ =>
      if (s.port i).dom == .ready then some ((s.putLoc r l d poison).noteHost p (s.cmd p k).ring i)
      else some (s.copyLost p k idx addr (elements addr d.length))
    | .ctrl b off => some (s.ctrlWrite p b off d.length (leVal d))
    | _ => some (s.putLoc r l d poison)

/-- The same for several places. -/
def State.copyPuts (s : State) (p k idx addr : Nat) (d : List Byte) (poison : Bool) : List Loc → Option State
  | [] => some s
  | l :: t =>
    match s.copyPut p k idx addr d poison l with
    | some s => s.copyPuts p k idx addr d poison t
    | none => none

/-- What one move of a copy comes to: bytes moved, a page fault (address, write, permission, slot), or a wait. -/
inductive CopyStep where
  | moved (n : Nat) (s : State)
  | fault (va : Nat) (wr perm : Bool) (slot : Nat)
  | hold

/-- The size of a register access of at most n bytes (R517). -/
def regPiece (n : Nat) : Nat := if n ≥ 8 then 8 else if n ≥ 4 then 4 else if n ≥ 2 then 2 else 1

/-- A place that is gone: a host port or a far device that cannot be reached (R194, R196). -/
def State.locDead (s : State) : Loc → Bool
  | .host i _ _ => (s.port i).dom != .ready
  | .adit _ _ dev _ _ => !s.reachable dev
  | _ => false

/-- The bytes of an untransposed copy that move at once, and whether they are only part of a destination element of 8 bytes
(R191): `m` remain in the row, the destination at da takes up to `dr` at once, and the source gives up to `sr`. -/
def copyCut (da m dr sr : Nat) : Nat × Bool :=
  let lim := min m dr
  let e := min (8 - da % 8) lim
  if sr ≥ lim then (lim, false)
  else if sr ≥ e then ((da + sr) / 8 * 8 - da, false)
  else (sr, true)

/-- Reads the next n bytes of a copy from a place into the head of the element under way (R191): at once, or as awaited bytes. -/
def State.copyHead (s : State) (p k : Nat) (j : CopyJob) (sa n : Nat) (sl : Loc) : CopyStep :=
  let d := descOf j.desc
  let r := s.req p (s.cmdTally p k) 1
  let w : Waiter := .head p k j.idx n (s.part p).epoch
  let put := fun (t : State) (f : CopyJob → CopyJob) =>
    t.updCmd p k fun c => { c with copies := c.copies.map fun y => if y.idx = j.idx then f y else y }
  let wait := fun (t : State) => CopyStep.moved n (put t fun y => { y with asked := true })
  let lost := CopyStep.moved n (put s fun y => { y with head := y.head ++ leBytes n 0, bad := true })
  match sl with
  | .host i a _ =>
    match s.hostAsk p i a n w with
    | some t => wait (t.charge p r.tally 10 (ceilDiv n 64))
    | none => lost
  | .adit _ win dev far off =>
    if !s.reachable dev then lost
    else
      match s.aditSend p r.tally 0x10 win dev far off n 0 0 [] w with
      | some (_, t) => wait t
      | none => .hold
  | _ =>
    if (match sl with | .dev a => s.lineHeld a | _ => false) then .hold
    else
      let (b, q, t) := s.getLoc r n sl
      let t := if (match sl with | .dev _ => true | _ => false) then t.train j.tlb r d.stream d.srcSlot sa else t
      .moved n (put t fun y => { y with head := y.head ++ b, bad := y.bad || q })

/-- The leaves that a copy's element has used stay cached (R247, R254). -/
def State.copyLeaves (s : State) (u p : Nat) (d : Desc) (sa da : Nat) : State :=
  let one := fun (s : State) (sp slot a : Nat) => if sp = 1 || sp = 3 then s.cacheLeaf u p slot a else s
  one (one s d.srcSpace d.srcSlot sa) d.dstSpace d.dstSlot da

/-- Moves the next bytes of a descriptor. -/
def State.copyStep (s : State) (p k : Nat) (j : CopyJob) : CopyStep :=
  let d := descOf j.desc
  let (sa, da, m) := d.at_ j.pos
  let r := s.req p (s.cmdTally p k) 1
  let src := if d.srcSpace = 5 then .ok [Loc.lost] else s.copyEnd j.tlb p d d.srcSpace d.srcSlot sa false
  let two := if d.xpose = 1 then s.copyEnd j.tlb p d d.srcSpace d.srcSlot ((sa + d.sp) % two64) false else .ok [Loc.lost]
  match src, two, s.copyEnd j.tlb p d d.dstSpace d.dstSlot da true with
  | .error e, _, _ => .fault sa false e d.srcSlot
  | _, .error e, _ => .fault ((sa + d.sp) % two64) false e d.srcSlot
  | _, _, .error e => .fault da true e d.dstSlot
  | .ok ss, .ok s2, .ok ds =>
    let s := s.copyLeaves j.tlb p d sa da
    let sl := ss.headD .lost
    let dr := ds.foldl (fun n l => min n (l.reach da)) 128
    let sr := if d.srcSpace = 5 then 128 else sl.reach sa
    let (n, part) :=
      if d.xpose != 0 then (min m (min dr sr), false)
      else if ds.any Loc.isReg then (regPiece (min m (min dr sr)), false)
      else if sl.isReg then
        let e := min m (8 - da % 8)
        (regPiece (min e sr), j.head != [] || decide (regPiece (min e sr) < e))
      else if j.head != [] then (min sr (min m (8 - da % 8)), true)
      else copyCut da m dr sr
    -- a poisoned source poisons no more than the destination element that reads it (R299)
    let n := if s.locPoison n sl && d.xpose = 0 && !ds.any Loc.isReg then min n (8 - da % 8) else n
    let done := fun (o : Option State) => match o with | some t => CopyStep.moved n t | none => .hold
    let ask := fun (t : State) => t.updCmd p k fun c => { c with awaited := c.awaited + 1 }
    let w : Waiter := .copy p k j.idx ds da n (s.part p).epoch
    if ds.any fun l => match l with | .dev a => s.writeHeld a | _ => false then .hold
    else if !ds.isEmpty && ds.all s.locDead then .moved n (s.copyLost p k j.idx da (elements da n))
    else if part then s.copyHead p k j sa n sl
    else if d.srcSpace = 5 then done (s.copyPuts p k j.idx da (slice (s.cmd p k).bytes (32 + sa) n) false ds)
    else
      let failed := done (s.copyPuts p k j.idx da (leBytes n 0) true ds)
      match sl with
      | .host i a _ =>
        match s.hostAsk p i a n w with
        | some t => .moved n (ask (t.charge p r.tally 10 (ceilDiv n 64)))
        | none => failed
      | .adit _ win dev far off =>
        if !s.reachable dev then failed
        else
          match s.aditSend p r.tally 0x10 win dev far off n 0 0 [] w with
          | some (_, t) => .moved n (ask t)
          | none => .hold
      | _ =>
        let waits := fun (l : Loc) => match l with | .dev a => s.lineHeld a | _ => false
        if waits sl || (d.xpose == 1 && waits (s2.headD .lost)) then .hold else
        let (b, q, t) := s.getLoc r n sl
        let t := if (match sl with | .dev _ => true | _ => false) then t.train j.tlb r d.stream d.srcSlot sa else t
        if d.xpose = 1 then
          let e := j.pos % (2 * d.row) % 2
          let (b2, q2, t) := t.getLoc r n (s2.headD .lost)
          let nib := fun (v : List Byte) => bits (u8 v 0) (4 * e + 3) (4 * e)
          done (t.copyPuts p k j.idx da (leBytes 1 (nib b + 16 * nib b2)) (q || q2) ds)
        else done (t.copyPuts p k j.idx da b q ds)

/-- An element gathered in parts is written whole (R191, R299): none when an adit write must wait, or a page fault. -/
def State.copyWhole (s : State) (p k : Nat) (j : CopyJob) : CopyStep :=
  let d := descOf j.desc
  let da := ((d.at_ (j.pos - j.head.length)).2.1) % two64
  match s.copyEnd j.tlb p d d.dstSpace d.dstSlot da true with
  | .error e => .fault da true e d.dstSlot
  | .ok ds =>
    let out :=
      if !ds.isEmpty && ds.all s.locDead then some (s.copyLost p k j.idx da (elements da j.head.length))
      else s.copyPuts p k j.idx da j.head j.bad ds
    match out with
    | some t => .moved 0 (t.updCmd p k fun c => { c with copies := c.copies.map fun y => if y.idx = j.idx then { y with head := [], bad := false } else y })
    | none => .hold

/-- The element under way is complete: its 8 bytes, or the last ones of its row, are gathered. -/
def CopyJob.whole (j : CopyJob) : Bool :=
  let d := descOf j.desc
  let n := j.head.length
  n != 0 && (((d.at_ (j.pos - n)).2.1 + n) % 8 == 0 || j.pos % d.row == 0)

/-- A command still copies. -/
def State.copying (s : State) (p k : Nat) : Bool := (s.cmd p k).wait == .copies

/-- The progress of a descriptor as its command holds it. -/
def State.copyAt (s : State) (p k : Nat) (j : CopyJob) : CopyJob := ((s.cmd p k).copies.find? fun y => y.idx == j.idx).getD j

/-- Moves a descriptor until it ends, faults or waits: what is left of it, its fault, and the state. -/
def State.copyRun (p k : Nat) : Nat → CopyJob → State → Option CopyJob × CopyStep × State
  | 0, _, s => (none, .hold, s)
  | f + 1, j, s =>
    let d := descOf j.desc
    if !s.copying p k then (none, .hold, s)
    else if j.asked then (some j, .hold, s)
    else if !j.whole && decide (j.pos ≥ d.row * d.rows) then (none, .hold, s)
    else
      match (if j.whole then s.copyWhole p k j else s.copyStep p k j) with
      | .moved n t => State.copyRun p k f { t.copyAt p k j with pos := j.pos + n, engine := j.engine } t
      | x => (some j, x, s)

/-- The copy engines of a partition's tiers (R299), in order: those of the tiers in which it may hold cores. -/
def State.engines_ (s : State) (p : Nat) : List Nat :=
  ((List.range 4).filter fun t => (List.range 144).any fun c => bit (s.sv.eligible p) (144 * t + c)).flatMap fun t =>
    (List.range 16).map (16 * t + ·)

/-- What is left of a descriptor (none: nothing). -/
def State.putJob (s : State) (p k idx : Nat) (o : Option CopyJob) : State :=
  s.updCmd p k fun c => { c with
    copies := match o with
      | some x => c.copies.map fun y => if y.idx = idx then x else y
      | none => c.copies.filter fun y => y.idx != idx }

/-- An engine takes a descriptor into its descriptor cache (R259). -/
def State.descRead (s : State) (p k e i : Nat) : State :=
  let b := (s.cmd p k).bytes
  let va := u64 b 16 + 64 * i
  match s.xlate (tlbEngine e) p (u8 b 24) va with
  | some { loc := .dev a, .. } =>
    if (s.cmd p k).op = 4 then (s.agentRead (16 + e) (paLine (s.readAt a))).cacheLeaf (tlbEngine e) p (u8 b 24) va else s
  | _ => s

/-- One descriptor of a command goes on, on its engine or on the first free one. -/
def State.copyJob (s : State) (p k : Nat) (j : CopyJob) : State :=
  let e := match j.engine with | some e => some e | none => (s.engines_ p).find? fun e => (s.engine e).busy.isNone
  match e with
  | none => s
  | some e =>
    if (s.engine e).stalled || !s.copying p k then s
    else
      let s := s.updEngine e fun _ => { busy := some (p, k) }
      let s := if j.engine.isNone then s.descRead p k e j.idx else s
      let d := descOf j.desc
      match State.copyRun p k (2 * d.row * d.rows + 1) { j with engine := some e } s with
      | (none, _, s) => if s.copying p k then (s.putJob p k j.idx none).updEngine e fun _ => {} else s
      | (some x, .fault va wr perm slot, s) =>
        let s := (s.putJob p k j.idx (some { x with engine := some e })).updEngine e fun y => { y with
          stalled := true, va := va, write := wr, perm := perm, asid := p * 256 + slot, recWait := true }
        s.engineRec e
      | (some x, _, s) => s.putJob p k j.idx (some { x with engine := some e })

/-- Bytes that have landed go on to their adit or register. -/
def State.copyLanded (p k : Nat) : Nat → State → State
  | 0, s => s
  | f + 1, s =>
    match (s.cmd p k).landed with
    | [] => s
    | (idx, l, a, d, _) :: t =>
      match s.copyPut p k idx a d false l with
      | some s => if s.copying p k then State.copyLanded p k f (s.updCmd p k fun c => { c with landed := t }) else s
      | none => s

/-- A copy goes on as far as it can; transfers stop at a thermal trip (R511). -/
def State.copyGo (s : State) (p k : Nat) : State :=
  if !s.copying p k || s.rst.tripped then s
  else
    let s := State.copyLanded p k (s.cmd p k).landed.length s
    let s := (s.cmd p k).copies.foldl (fun s j => s.copyJob p k j) s
    (s.semCheck).reclaim p

/-- Every write of the transfer has landed or been dropped (R299). -/
def Cmd.copied (c : Cmd) : Bool := c.copies.isEmpty && c.landed.isEmpty && c.awaited == 0

/-- An engine's transfer is aborted (R251, R261): its descriptor fails, and the engine is free. -/
def State.engineAbort (s : State) (e : Nat) : State :=
  let x := s.engine e
  match x.busy with
  | none => s
  | some (p, k) =>
    let idx := (((s.cmd p k).copies.find? fun j => j.engine == some e).map (·.idx)).getD 0
    let s := (s.copyFail p k idx 0x06 x.va).updCmd p k fun c => { c with copies := c.copies.filter fun j => j.engine != some e }
    (s.updEngine e fun _ => {}).copyGo p k

/-- The driver's action on a stalled engine, once its record is written (R251, R482). -/
def State.engineAct (s : State) (e : Nat) : State :=
  let x := s.engine e
  match x.busy with
  | none => s
  | some (p, k) =>
    if !x.stalled || x.recWait || x.action = 0 then s
    else if x.action = 1 then (s.updEngine e fun y => { y with stalled := false, action := 0 }).copyGo p k
    else s.engineAbort e

/-- The driver's actions that wait are taken. -/
def State.engineActions (s : State) : State := s.engines.keys.foldl (fun s e => s.engineAct e) s

/-! The commands. -/

def semCopy (p k : Nat) (s : State) : State :=
  let b := (s.cmd p k).bytes
  let va := u64 b 16
  let slot := u8 b 24
  let n := u32 b 28
  if va % 64 != 0 || n > 65536 then s.fail p k 0x01
  else if n = 0 then s
  else if !s.asOn p slot then s.fail p k 0x02
  else
    match s.cpRead p k slot va (64 * n) with
    | (none, s) => s.fail p k 0x03 va
    | (some (_, true), s) => s.fail p k 0x04 va
    | (some (d, false), s) =>
      let js := (List.range n).map fun i => { idx := i, desc := slice d (64 * i) 64 : CopyJob }
      match js.find? fun j => s.descCode p j.desc != 0 with
      | some j => s.fail p k (s.descCode p j.desc) (va + 64 * j.idx) j.idx
      | none => (s.updCmd p k fun c => { c with wait := .copies, copies := js }).copyGo p k

/-- The descriptor that stands for a COPY_INLINE: one row of SIZE bytes from its data. -/
def inlineDesc (dest space slot size : Nat) : List Byte :=
  padTo 64 (leBytes 1 5 ++ leBytes 1 space ++ leBytes 1 0 ++ leBytes 1 slot ++ leBytes 12 0 ++ leBytes 8 dest ++ leBytes 4 size ++ leBytes 4 1)

def semCopyInline (p k : Nat) (s : State) : State :=
  let b := (s.cmd p k).bytes
  let dest := u64 b 16
  let space := u8 b 24
  let slot := u8 b 25
  let n := u8 b 26
  let dev := space = 1 && (match s.xlate (tlbCp p) p slot dest with | some { loc := .ctrl _ _, .. } => true | _ => false)
  if space = 0 || space > 4 || n > 240 || lenOf b < ceilDiv (32 + n) 64 || !zeroAt b (32 + n) (b.length - (32 + n)) ||
     (dev && (dest % 4 != 0 || n % 4 != 0)) || (space = 2 && decide (dest + n > s.scratchOpen p)) then s.fail p k 0x01
  else if space != 2 && !s.asOn p slot then s.fail p k 0x02
  else
    let d := inlineDesc dest space slot n
    (s.updCmd p k fun c => { c with wait := .copies, copies := [{ idx := 0, desc := d }] }).copyGo p k

def execCopy (p n : Nat) (c : List Byte) (s : State) : Host.Outcome State Fault Refusal :=
  .next (ringCmd { flags := 1, used := [(16, 9), (28, 4)], sem := semCopy } 0x04 p n c s).engineActions

def execCopyInline (p n : Nat) (c : List Byte) (s : State) : Host.Outcome State Fault Refusal :=
  .next (ringCmd { flags := 1, used := [(16, 11), (32, 960)], sem := semCopyInline } 0x05 p n c s).engineActions

/-- XLT_FAULT_CTRL by a host (R251). -/
def State.copyAction (s : State) (q e a : Nat) : State :=
  (s.partOp (s.who q) 3 fun p s => s.faultCtrl p (e % 64 + a * 256)).engineActions

def execCopyRetry (q e : Nat) (s : State) : Host.Outcome State Fault Refusal := .next (s.copyAction q e 1)
def execCopyAbort (q e : Nat) (s : State) : Host.Outcome State Fault Refusal := .next (s.copyAction q e 2)

/-! Rows after which an engine may go on. -/

/-- REGISTER_WRITE (R5 to R7, R20, R517). -/
def execRegisterWrite (q off size : Nat) (v : DWord) (s : State) : Host.Outcome State Fault Refusal :=
  .next (s.access q fun w s => s.busWrite w off size v.toNat).engineActions

/-- FAULT_HOLD_RETRY (R481): every ring whose hold or engines have records waiting. -/
def execFaultHoldRetry (s : State) : Host.Outcome State Fault Refusal :=
  let s := s.sv.parts.foldl (fun s p => s.flushRing (some p)) (s.flushRing none)
  .next (s.engines.keys.foldl (fun s e => s.engineRec e) s).engineActions

end Sys2Proof.Machine
end

