-- ==== Sys2Proof/Machine/Channels.lean ====
section
/-!
DEFINITION. What happens at the HBM channels (R202, R203, R207, R210, R215, R216, R223 to R225): training, refresh, scrub, holds,
and entries that leave a write-combining buffer.
-/

namespace Sys2Proof.Machine

/-! Capacity at boot (R44, R203). -/

/-- The usable pages that the figures recorded in flash give one channel. -/
def State.assumedOn (s : State) (ch : Nat) : Nat :=
  if s.flash.capDead.contains ch then 0 else s.flash.capPages - s.retiredOn ch

/-- The usable capacity that a capacity check assumes before training (R203). -/
def State.assumed (s : State) : Nat := (List.range 512).foldl (fun n c => n + s.assumedOn c) 0

/-- A page count as the stacks of a B0 part report it (R202). -/
def b0Pages : Nat := 24576

/-- CHANNEL_TRAINING_END (R202, R203, R236): each channel in training reports its pages, or is among `failed` and dies; the
figures go to flash, and a shortfall against the capacity check is reported. -/
def execChannelTrainingEnd (failed : List Nat) (s : State) : Host.Outcome State Fault Refusal :=
  if !s.rel 4 || s.mem.trained then .next s
  else
    let before := s.assumed
    let s := (List.range 512).foldl (init := s) fun s c =>
      if (s.chan c).state != .training then s
      else if failed.contains c then
        (s.updChan c fun x => { x with state := .dead }).pit 2 2 (frec 0x0007 0 0 0xFF 4 c s.tim.now 0 [])
      else s.updChan c fun x => { x with state := .live, pages := b0Pages, scrubAt := s.clk }
    let s := s.updMem fun m => { m with trained := true }
    let s := { s with flash := { s.flash with capPages := b0Pages - 512, capDead := failed.filter (· < 512) } }
    let found := s.capacity
    .next (if (s.srv.applied.isSome || s.srv.cand.isSome) && found < before
      then s.reportDev 0x0019 0 0 0 (leBytes 8 before ++ leBytes 8 found) true else s)

/-- REFRESH (R207): an all-bank refresh of one pseudo-channel; a held channel refreshes itself. -/
def execRefresh (pch : Nat) (s : State) : Host.Outcome State Fault Refusal :=
  if (s.chan (pch / 2)).state != .live then .next s
  else .next (s.updChan (pch / 2) fun c => { c with refs := c.refs.set (pch % 2) (c.refs.getD (pch % 2) 0 + 1) })

/-- WC_ENTRY_TIMEOUT (R210): entry i of slice sl leaves; an entry for a held channel stays (R238). -/
def execWcEntryTimeout (sl i : Nat) (s : State) : Host.Outcome State Fault Refusal :=
  let x := Tab.get {} s.mem.slices sl
  match x.wc[i]? with
  | none => .next s
  | some e =>
    if (s.chan (e.line / 2 ^ 24)).state = .held then .next s
    else .next ((s.updMem fun m => { m with slices := Tab.set {} m.slices sl { x with wc := x.wc.eraseIdx i } }).wcLeave e)

/-! Patrol scrub (R215, R216). -/

/-- A channel's lines. -/
def Chan.lines (c : Chan) : Nat := c.pages * 512

/-- 24 hours, in reference nanoseconds. -/
def scrubDay : Nat := 86400000000000

/-- At a SHOT_BEGIN each channel takes on the lines it owes. -/
def State.scrubOwe (s : State) : State :=
  let owe := fun (_ : Nat) (c : Chan) =>
    if c.state = .live || c.state = .held
    then { c with owed := c.owed + ceilDiv (c.lines * (s.clk - c.scrubAt)) scrubDay, scrubAt := s.clk } else c
  s.updMem fun m => { m with chans := Tab.adjust {} owe m.chans }

/-- MEM_SCRUB_PASS (R215, R235): the passes that every live channel has made. -/
def State.scrubPasses (s : State) : State :=
  let ps := s.mem.chans.filterMap fun e => if e.2.state = .live || e.2.state = .held then some e.2.passes else none
  match ps with
  | [] => s
  | p :: t => s.updMem fun m => { m with scrubPass := (t.foldl min p) % two32 }

/-- The page of a line is retired by the Deputy itself (R218). -/
def State.selfRetire (s : State) (a : Nat) : State :=
  let page := a / 65536 * 65536
  if s.regionAt a != none || s.holder (paChan a) (paPage a) != none || s.flash.retired.contains page ||
    decide (65536 ≤ s.flash.retired.length) then s
  else { s with flash := { s.flash with retired := s.flash.retired ++ [page] } }

/-- One scrub read of a line (R215): a dirty line is read and its corrections counted, no more; another is rewritten corrected. -/
def State.scrubLine (s : State) (line : Nat) : State :=
  if s.dirtyLine line then
    (List.range 8).foldl (init := s) fun s k =>
      match verdict (s.syndromeOf line k) with
      | .single i _ => s.countCe line i
      | _ => s
  else
    let a := line * 128
    let bad := !(s.badWords line).isEmpty
    let mendable := (List.range 8).filter fun k => match verdict (s.syndromeOf line k) with | .single _ _ => true | _ => false
    let s := mendable.foldl (fun s k => s.mend line k) (s.channelRead line)
    if bad then s.selfRetire a else s

/-- PATROL_SCRUB (R215, R216): a channel reads its next line, in a shot window while it owes lines, or at any time while no window
is to come. -/
def execPatrolScrub (ch : Nat) (flips : List Flip) (s : State) : Host.Outcome State Fault Refusal :=
  let c := s.chan ch
  let due := s.noWindows || (s.tim.cad.window.isSome && c.owed != 0)
  let s := s.disturb flips
  if c.state != .live || c.lines = 0 || !due || s.lineHeld ((ch * 2 ^ 24 + c.next) * 128) then .next s
  else
    let last := decide (c.next + 1 ≥ c.lines)
    let s := s.updChan ch fun c => { c with
      owed := c.owed - 1, next := if last then 0 else c.next + 1, passes := if last then c.passes + 1 else c.passes }
    let s := ((s.scrubLine (ch * 2 ^ 24 + c.next)).chargeIdle 8 4)
    .next (if last then s.scrubPasses else s)

/-! Holds (R223 to R225). -/

/-- PHY_MARGIN_LOSS (R223): a retrain is due, and starts at once when no window is to come. -/
def execPhyMarginLoss (ch : Nat) (s : State) : Host.Outcome State Fault Refusal :=
  if (s.chan ch).state != .live || (s.chan ch).due != .none then .next s
  else .next ((s.updChan ch fun c => { c with due := .retrain }).holdNow ch)

/-- URGENT_RETRAIN (R223): the channel is held at once, or once no other of its stack is. -/
def execUrgentRetrain (ch : Nat) (s : State) : Host.Outcome State Fault Refusal :=
  if (s.chan ch).state != .live then .next s
  else
    let s := s.updChan ch fun c => { c with due := .urgent }
    .next (if s.stackHeld ch then s else s.hold ch .urgent)

/-- In a shot window with `left` ns to run, each stack holds its lowest channel with an operation that fits (R223). -/
def State.windowHolds (s : State) (left : Nat) : State :=
  (List.range 16).foldl (fun s k => s.holdNext (32 * k) fun op => decide (op.need ≤ left)) s

/-- Copies that waited for a held channel go on. -/
def State.copiesGo (s : State) : State :=
  s.parts.foldl (fun s e => e.2.cmds.foldl (fun s c => if c.2.wait == .copies then s.copyGo e.1 c.1 else s) s) s

/-- CHANNEL_HOLD_END (R223, R224): the operation completes; a retrain may find a lane stuck (pseudo-channel × 36 + symbol), and a
repair has moved a lane onto a spare. -/
def execChannelHoldEnd (ch : Nat) (stuck : Option Nat) (s : State) : Host.Outcome State Fault Refusal :=
  let c := s.chan ch
  if c.state != .held then .next s
  else
    let s := s.updChan ch fun c => { c with state := .live, hold := .none }
    let s := match c.hold, c.failed, stuck with
      | .repair, lane :: t, _ => s.updChan ch fun c => { c with
          failed := t, spares := c.spares.set (lane / 36) (c.spares.getD (lane / 36) 0 + 1), syms := c.syms.filter fun e => e.1 != lane }
      | .repair, [], _ => s
      | _, _, some lane => if lane < 72 then s.laneFails ch lane else s
      | _, _, none => s
    .next (s.holdNow ch).copiesGo

/-- CHANNEL_HOLD_EXPIRY (R225): the hold ends without completion, and the channel dies. -/
def execChannelHoldExpiry (ch : Nat) (s : State) : Host.Outcome State Fault Refusal :=
  let c := s.chan ch
  if c.state != .held then .next s
  else .next (s.channelDies ch (if c.hold = .urgent then 2 else 1)).copiesGo

end Sys2Proof.Machine
end

