-- ==== Sys2Proof/Machine/Validate.lean ====
section
/-!
DEFINITION. The validation of a Survey image (R27 to R44, R199, R336, R371, R372): its findings in the order of R41, of which
the first is reported.
-/

namespace Sys2Proof.Machine

/-! Findings. -/

/-- A finding in a section's body: entry index, code of R43, offset in the body. -/
abbrev Finding := Nat × Nat × Nat

/-- A condition on the field at an offset. -/
def want (e : Nat) (ok : Bool) (code off : Nat) : List Finding := if ok then [] else [(e, code, off)]

/-- n bytes from an offset are zero: the first that is not is found. -/
def wantZero (b : List Byte) (e off n : Nat) (code : Nat := 0x0D) : List Finding :=
  match ((b.drop off).take n).findIdx? (· != 0#8) with
  | some i => [(e, code, off + i)]
  | none => []

/-- The entries of a per-partition section: those of an invalid partition are zero (R32); a non-zero one names an invalid
partition (R43, R50). -/
def perPart (v : Survey) (b : List Byte) (base size : Nat) (f : Nat → Nat → List Finding) : List Finding :=
  (List.range 16).flatMap fun p =>
    if v.valid p then f p (base + size * p) else wantZero b p (base + size * p) size 0x10

/-- The entries that a count gives. -/
def perEntry (n base size : Nat) (f : Nat → Nat → List Finding) : List Finding :=
  (List.range n).flatMap fun i => f i (base + size * i)

/-- A partition field: its range, then a valid partition (R43). -/
def wantPart (v : Survey) (b : List Byte) (e off : Nat) : List Finding :=
  want e (u8 b off < 16) 0x0E off ++ want e (v.valid (u8 b off)) 0x10 off

/-! Sections (R33 to R39, R332, R371). Each list of findings is in offset order. -/

def checkParts (v : Survey) (b : List Byte) : List Finding :=
  (List.range 16).flatMap fun p =>
    let o := 64 * p
    if u8 b o = 0 then wantZero b p o 64 0x10
    else want p (u8 b o == 1) 0x0E o ++ want p (u8 b (o + 1) < 2) 0x0E (o + 1) ++ want p (u8 b (o + 2) < 16) 0x0E (o + 2) ++
      want p (v.valid p && u8 b (o + 3) < 8) 0x0D (o + 3) ++ wantZero b p (o + 4) 12 ++ wantZero b p (o + 32) 32

def checkCores (v : Survey) (b : List Byte) : List Finding :=
  perPart v b 0 128 fun p o =>
    let el := fun (q : Nat) => leAt b (128 * q + 8) 72
    want p (u16 b o ≤ u16 b (o + 2)) 0x0E o ++ want p (u16 b (o + 2) ≤ popc 576 (el p)) 0x0E (o + 2) ++ wantZero b p (o + 4) 4 ++
    want p ((List.range p).all fun q => el p &&& el q == 0) 0x0F (o + 8) ++ wantZero b p (o + 80) 48

def checkPools (v : Survey) (b : List Byte) (room : Bool) : List Finding :=
  want 0 (u64 b 0 ≤ 256 && room) 0x0E 0 ++ wantZero b 0 8 56 ++
  perEntry (min 256 (u64 b 0)) 64 128 fun i o =>
    wantPart v b i o ++ want i (u8 b (o + 1) < 16) 0x0E (o + 1) ++
    want i ((List.range i).all fun j => u8 b (64 + 128 * j) != u8 b o || u8 b (65 + 128 * j) != u8 b (o + 1)) 0x0F (o + 1) ++
    want i (decide (8 ≤ u8 b (o + 2) ∧ u8 b (o + 2) ≤ 12)) 0x0E (o + 2) ++
    want i (decide (u8 b (o + 2) ≤ u8 b (o + 3) ∧ u8 b (o + 3) ≤ 12)) 0x0E (o + 3) ++
    want i (u32 b (o + 4) != 0) 0x0E (o + 4) ++ wantZero b i (o + 8) 56

def checkRegions (v : Survey) (b : List Byte) (room : Bool) : List Finding :=
  want 0 (u64 b 0 ≤ 64 && room) 0x0E 0 ++ wantZero b 0 8 56 ++
  perEntry (min 64 (u64 b 0)) 64 64 fun i o =>
    want i (u16 b o < 64) 0x0E o ++ want i ((List.range i).all fun j => u16 b (64 + 64 * j) != u16 b o) 0x0F o ++
    wantPart v b i (o + 2) ++ want i (u8 b (o + 3) < 2) 0x0D (o + 3) ++
    want i ((setBits 16 (u16 b (o + 4))).all v.valid) 0x10 (o + 4) ++ wantZero b i (o + 6) 2 ++
    want i (u32 b (o + 8) != 0) 0x0E (o + 8) ++ wantZero b i (o + 12) 52

def checkL2 (v : Survey) (b : List Byte) : List Finding :=
  let sc := fun (n : Nat) => (List.range n).foldl (fun m p => m ||| u16 b (64 + 16 * p)) 0
  let named := fun (c : Nat) => v.parts.any fun p => (List.range 6).any fun i => bits (u32 b (66 + 16 * p)) (4 * i + 3) (4 * i) == c
  ((List.range 16).flatMap fun c =>
    want c (u16 b (2 * c) &&& sc 16 == 0) 0x0F (2 * c) ++ want c (u16 b (2 * c) != 0 || !named c) 0x0E (2 * c)) ++
  wantZero b 0 32 32 ++
  perPart v b 64 16 fun p o =>
    want p (u16 b o &&& sc p == 0) 0x0F o ++ want p (popc 16 (sc (p + 1)) ≤ 8) 0x0E o ++
    want p (u8 b (o + 5) == 0) 0x0D (o + 2) ++ wantZero b p (o + 6) 10

def checkLevels (v : Survey) (b : List Byte) : List Finding :=
  wantZero b 0 2 62 ++
  perPart v b 64 16 fun p o =>
    want p (((List.range (p + 1)).map fun q => u8 b (64 + 16 * q)).sum ≤ 256) 0x0E o ++ wantZero b p (o + 2) 14

/-- Slot k of a cadence in the section's layout (R332, R336). -/
def checkSlot (v : Survey) (x : CadSet) (k : Nat) : Bool :=
  let w := x.slot k
  let ev := fun (j : Nat) => slotEvent (x.slot j)
  let shots := ((List.range k).filter fun j => ev j == 3 || ev j == 4).getLast?
  let open_ := match shots with | some j => ev j == 3 | none => false
  let last := !(List.range x.count).any fun j => decide (k < j) && ev j == 4
  decide (slotOffset w < x.ns) && slotFieldsOk w &&
  (k == 0 || decide (slotOffset (x.slot (k - 1)) ≤ slotOffset w)) &&
  (if ev k = 3 then !open_ && !last else if ev k = 4 then open_ else true) &&
  (ev k != 1 || (v.valid (bits (slotTarget w) 19 16) &&
    (slotTarget w % 256 &&& (255 - v.levels (bits (slotTarget w) 19 16) % 256)) == 0))

def checkCadence (v : Survey) (b : List Byte) (room : Bool) : List Finding :=
  want 0 (decide (10 ≤ u32 b 0 ∧ u32 b 0 ≤ 100000)) 0x12 0 ++ want 0 (u16 b 4 ≤ 256) 0x12 4 ++ want 0 room 0x0E 4 ++
  wantZero b 0 6 58 ++
  match v.cadence with
  | some x => perEntry (min 256 x.count) 64 8 fun k o => want k (checkSlot v x k) 0x12 o
  | none => []

/-- A route entry (R358, R372). -/
def checkRoute (b : List Byte) (d w : Nat) : List Finding :=
  let o := 8320 + 4 * d
  let on := (List.range 4).filter fun i => bit (bits w 27 24) i
  let ports := on.map fun i => bits w (5 * i + 4) (5 * i)
  let here := bit w 31
  want d (bits w 30 28 == 0 && bits w 23 20 == 0) 0x0D o ++
  want d (ports.all (bit (u32 b 4)) && ports.eraseDups.length == ports.length && here == (u16 b 0 % 16384 == d) &&
    !(here && !on.isEmpty)) 0x13 o

def checkFabric (v : Survey) (b : List Byte) (room : Bool) : List Finding :=
  let id := u16 b 0
  let open_ := bit id 15
  let stat := bit (u8 b 2) 1
  let owner := fun (e o : Nat) => want e (u8 b o == 0xFF || (v.valid (u8 b o) && v.grant (u8 b o) 1)) 0x10 o
  want 0 (!bit id 14) 0x0D 0 ++ want 0 (!open_ || id % 16384 == 0) 0x13 0 ++
  want 0 (u8 b 2 < 4) 0x0D 2 ++ want 0 room 0x0E 2 ++ want 0 (!(open_ && stat)) 0x13 2 ++ wantZero b 0 3 1 ++ wantZero b 0 8 56 ++
  (perPart v b 64 4 fun p o => want p (u32 b o &&& u32 b 4 == u32 b o) 0x13 o) ++
  (perEntry 256 128 16 fun a o => owner a o ++ want a (u8 b (o + 1) < 8) 0x0D (o + 1) ++
    want a (u16 b (o + 2) ≤ u16 b (o + 4)) 0x13 (o + 2) ++ wantZero b a (o + 6) 10) ++
  (perEntry 256 4224 16 fun w o => owner w o ++ want w (u8 b (o + 1) < 8) 0x0D (o + 1) ++ wantZero b w (o + 2) 2 ++
    want w (u8 b o == 0xFF || decide (1 ≤ u32 b (o + 4) ∧ u32 b (o + 4) ≤ 2 ^ 24)) 0x13 (o + 4) ++
    want w (u16 b (o + 8) ≤ u16 b (o + 10)) 0x13 (o + 8) ++ wantZero b w (o + 12) 4) ++
  if stat then (List.range 16384).flatMap fun d => checkRoute b d (u32 b (8320 + 4 * d)) else []

def checkJobs (v : Survey) (b : List Byte) (room : Bool) : List Finding :=
  want 0 (u64 b 0 ≤ 512 && room) 0x0E 0 ++ wantZero b 0 8 56 ++
  perEntry (min 512 (u64 b 0)) 64 8 fun i o =>
    let lo := u16 b (o + 2)
    let hi := u16 b (o + 4)
    wantPart v b i o ++ want i (v.grant (u8 b o) 2) 0x10 o ++ wantZero b i (o + 1) 1 ++ want i (lo < 4096) 0x0E (o + 2) ++
    want i ((List.range i).all fun j =>
      let q := 64 + 8 * j
      u8 b q == u8 b o || decide (hi < u16 b (q + 2) ∨ u16 b (q + 4) < lo)) 0x0F (o + 2) ++
    want i (decide (lo ≤ hi ∧ hi < 4096)) 0x0E (o + 4) ++ wantZero b i (o + 6) 2

def checkHosts (b : List Byte) : List Finding :=
  want 0 (u8 b 0 < 3) 0x0E 0 ++ wantZero b 0 1 63 ++
  perEntry 2 64 64 fun i o =>
    let on := u8 b o == 1
    want i (u8 b o < 2) 0x0E o ++ (if on then want i (u8 b (o + 1) < 16) 0x0E (o + 1) else wantZero b i (o + 1) 1) ++
    (if on then want i (decide (36 ≤ u8 b (o + 2) ∧ u8 b (o + 2) ≤ 40)) 0x0E (o + 2) else wantZero b i (o + 2) 1) ++
    wantZero b i (o + 3) 61

def checkEnergy (v : Survey) (b : List Byte) : List Finding :=
  want 0 (u8 b 0 < 2) 0x0E 0 ++ (if u8 b 0 = 1 then wantPart v b 0 1 else []) ++
  want 0 (u8 b 2 < 2) 0x0E 2 ++ (if u8 b 2 = 1 then wantPart v b 0 3 else []) ++ wantZero b 0 4 60

def checkPower (b : List Byte) : List Finding :=
  want 0 (decide (1200 ≤ u16 b 0 ∧ u16 b 0 ≤ 3000)) 0x0E 0 ++ wantZero b 0 2 62

def checkDebug (v : Survey) (b : List Byte) : List Finding :=
  want 0 (u8 b 0 < 2) 0x0D 0 ++ wantZero b 0 1 63 ++ perPart v b 64 4 fun p o => want p (u32 b o < 4) 0x0D o

def checkPlacement (v : Survey) (b : List Byte) : List Finding :=
  perPart v b 0 16 fun p o =>
    want p (u8 b o ≤ 4) 0x0E o ++ want p (u8 b (o + 1) < 8) 0x0D (o + 1) ++
    want p (decide (1 ≤ u16 b (o + 2) ∧ u16 b (o + 2) ≤ 576)) 0x0E (o + 2) ++ wantZero b p (o + 4) 12

/-- The page count against which a retired page is checked (R199). -/
def State.pagesOn (s : State) (ch : Nat) : Nat := if s.mem.trained then (s.chan ch).pages else s.flash.capPages + 512

def State.checkRetired (s : State) (b : List Byte) (room : Bool) : List Finding :=
  want 0 (u64 b 0 ≤ 65536 && room) 0x0E 0 ++ wantZero b 0 8 56 ++
  perEntry (min 65536 (u64 b 0)) 64 8 fun i o =>
    let a := u64 b o
    want i (a % 65536 == 0 && decide (a < 2 ^ 40) && decide (paPage a < s.pagesOn (paChan a))) 0x0E o

/-- The bytes that a section's layout uses, and whether a field of its body sets them (R29). -/
def secUse (t : Nat) (b : List Byte) : Nat × Bool :=
  match t with
  | 1 => (1024, false)
  | 2 => (2048, false)
  | 3 => (64 + 128 * u64 b 0, true)
  | 4 => (64 + 64 * u64 b 0, true)
  | 5 => (320, false)
  | 6 => (320, false)
  | 7 => (64 + 8 * u16 b 4, true)
  | 8 => (if bit (u8 b 2) 1 then 73856 else 8320, true)
  | 9 => (64 + 8 * u64 b 0, true)
  | 10 => (192, false)
  | 11 => (64, false)
  | 12 => (64, false)
  | 13 => (128, false)
  | 14 => (256, false)
  | _ => (64 + 8 * u64 b 0, true)

/-- The findings in a section's body: its fields, then what lies beyond its layout (R29). -/
def State.checkBody (s : State) (v : Survey) (t : Nat) (b : List Byte) : List Finding :=
  let (n, _) := secUse t b
  let room := decide (n ≤ b.length)
  (match t with
   | 1 => checkParts v b
   | 2 => checkCores v b
   | 3 => checkPools v b room
   | 4 => checkRegions v b room
   | 5 => checkL2 v b
   | 6 => checkLevels v b
   | 7 => checkCadence v b room
   | 8 => checkFabric v b room
   | 9 => checkJobs v b room
   | 10 => checkHosts b
   | 11 => checkEnergy v b
   | 12 => checkPower b
   | 13 => checkDebug v b
   | 14 => checkPlacement v b
   | _ => s.checkRetired b room) ++ wantZero b 0 n (b.length - n)

/-! The walk (R41). -/

/-- A section as the walk finds it: type, SFLAGS, its offset, its body. -/
structure Sec where
  type : Nat
  flags : Nat
  off : Nat
  body : List Byte
  deriving DecidableEq, Repr

/-- Walks n sections from an offset to the end of the sections: they, or the offset of the failure. -/
def walkSecs (img : List Byte) (stop : Nat) : Nat → Nat → Except Nat (List Sec)
  | 0, o => if o = stop then .ok [] else .error o
  | n + 1, o =>
    let len := u32 img (o + 4)
    if len % 64 != 0 || len < 64 || o + 64 + len > stop then .error (o + 4)
    else
      match walkSecs img stop n (o + 64 + len) with
      | .error e => .error e
      | .ok l => .ok ({ type := u16 img o, flags := u16 img (o + 2), off := o, body := slice img (o + 64) len } :: l)

/-- A section type that the device knows (R32). -/
def Sec.known (x : Sec) : Bool := 1 ≤ x.type && x.type ≤ 15

/-- The findings of a section, with offsets from the image's start; `prev` is the type before it. -/
def State.checkSec (s : State) (v : Survey) (prev : Nat) (x : Sec) (img : List Byte) : List Finding :=
  let at_ := fun (l : List Finding) => l.map fun f => (f.1, f.2.1, f.2.2 + x.off + 64)
  want 0 (prev ≤ x.type) 0x0A x.off ++ want 0 (x.known || bit x.flags 0) 0x0B x.off ++ want 0 (x.flags < 2) 0x0D (x.off + 2) ++
  (if x.known then want 0 ((secUse x.type x.body).2 || decide ((secUse x.type x.body).1 ≤ x.body.length)) 0x0E (x.off + 4) else []) ++
  wantZero img 0 (x.off + 8) 56 ++ (if x.known then at_ (s.checkBody v x.type x.body) else [])

/-- The findings of sections in image order, with their types. -/
def State.checkSecs (s : State) (v : Survey) (img : List Byte) : Nat → List Sec → List (Nat × Finding)
  | _, [] => []
  | prev, x :: t => (s.checkSec v prev x img).map (fun f => (x.type, f)) ++ s.checkSecs v img (x.type + 1) t

/-! Checks that span sections. -/

/-- The union of R40, the list in flash first. -/
def State.union (s : State) (v : Survey) : List Nat :=
  s.flash.retired ++ (v.retired.eraseDups.filter fun a => !s.flash.retired.contains a)

/-- The usable pages of a channel with a list of retired pages (R44, R203). -/
def State.capOn (s : State) (ret : List Nat) (ch : Nat) : Nat :=
  let n := (ret.filter fun a => paChan a == ch).length
  if s.mem.trained then (if (s.chan ch).state = .live then (s.chan ch).pages - 512 - n else 0)
  else if s.flash.capDead.contains ch then 0 else s.flash.capPages - n

/-- Pages that the pools and regions of an image take (R44). -/
def Survey.pages (v : Survey) : Nat :=
  (v.pools.map fun x => x.gib * 16384).sum + (v.regions.map fun r => r.size2m * 32 * (1 + b2n r.guarded)).sum

/-- Checks that span sections (R41). A missing required section comes first (DESIGN CHOICE, log entry 43: R41 gives these checks no order
among themselves). -/
def State.checkSpan (s : State) (v : Survey) (live : Bool) (op : Nat) (off : Nat → Nat) : List (Nat × Finding) :=
  let ret := s.union v
  let miss := ([1, 2, 3, 10, 12].filter fun t => (v.sec t).isNone).map fun t => (t, (0, 0x0C, 0))
  let own := v.parts.flatMap fun p =>
    want p (v.portOn (v.port p)) 0x10 (off 1 + 64 * p + 1) ++ want p (v.fn p % 16 ≤ v.vfCount (v.port p)) 0x10 (off 1 + 64 * p + 2)
  let pool := v.pools.zipIdx.flatMap fun e =>
    want e.2 (e.1.gib * 16384 ≤ ((setBits 512 e.1.chans).map (s.capOn ret)).sum) 0x11 (off 3 + 64 + 128 * e.2 + 4)
  let total := want 0 (v.pages ≤ ((List.range 512).map (s.capOn ret)).sum) 0x11 (off 3)
  miss ++ own.map (fun f => (1, f)) ++ (pool ++ total).map (fun f => (3, f)) ++
  (want 0 (ret.length ≤ 65536) 0x1A (off 15)).map (fun f => (15, f)) ++
  (if op = 2 && live then
    (want 0 (v.body 10 == s.sv.body 10) 0x14 (off 10)).map (fun f => (10, f)) ++
    (want 0 (match s.tim.cad.live with | some c => decide (150000 ≤ c.maxWin) | none => false) 0x15 0).map (fun f => (0, f))
  else [])

/-! The header and the trailer (R28, R30, R31, R41). -/

/-- The serial check (R43, R48, R49) against a serial and hash; SAME only when they are the applied image's. -/
def wantSerial (serial : Nat) (hash : List Byte) (base : Option (Nat × List Byte)) (applied : Bool) : List Finding :=
  match base with
  | none => []
  | some (n, h) =>
    if serial < n then [(0, 0x09, 0x18)]
    else if serial = n then (if h = hash then (if applied then [(0, 0x18, 0x18)] else []) else [(0, 0x09, 0x18)])
    else []

/-- The check of a trailer that is present, at an offset (R31). -/
def State.checkTrailer (s : State) (img : List Byte) (o : Nat) : List Finding :=
  let key := u32 img 0x10
  match s.flash.keys.find? fun k => k.1 == key with
  | none => want 0 (slice img o 4 == ascii "OSIG") 8 o ++ [(0, 8, 0x10)]
  | some k =>
    want 0 (slice img o 4 == ascii "OSIG") 8 o ++ want 0 (u32 img (o + 4) == key) 8 (o + 4) ++
    wantZero img 0 (o + 72) 56 8 ++
    want 0 (Config.ecdsaVerify k.2 (Config.sha256 (img.take o)) (slice img (o + 8) 64)) 8 (o + 8)

/-- A stored image requires a signature (R31). -/
def imgSigns (img : Option (List Byte)) : Bool :=
  match img with | some b => bit (u16 b 6) 1 | none => false

/-- Validates an image of `len` bytes (R41): the Survey, or the code and SRV_DETAIL of the first failure. -/
def State.validate (s : State) (img : List Byte) (len op : Nat) (base : Option (Nat × List Byte)) : Except (Nat × Nat) Survey :=
  let fl := u16 img 6
  let signed := bit fl 0
  let n := u16 img 0x0C
  let stop := len - (if signed then 128 else 0)
  let hash := slice img 0x20 32
  let live := s.live
  let hdr1 := want 0 (slice img 0 4 == ascii "SURV") 3 0 ++ want 0 (u16 img 4 == 0x0100) 4 4 ++ want 0 (fl < 4) 0x0D 6 ++
    want 0 (u32 img 8 == len && img.length == len && len % 64 == 0 && decide (384 ≤ len ∧ len ≤ 4194304)) 5 8 ++
    want 0 (decide (5 ≤ n ∧ n ≤ 15)) 0x0E 0x0C
  let bad := fun (t : Nat) (f : Finding) => (Except.error (f.2.1, t * 2 ^ 48 + f.1 * 2 ^ 32 + f.2.2) : Except (Nat × Nat) Survey)
  match hdr1 with
  | f :: _ => bad 0 f
  | [] =>
    match walkSecs img stop n 0x100 with
    | .error o => bad 0 (0, 5, o)
    | .ok secs =>
      let v : Survey := {
        serial := u64 img 0x18, hash := hash, signReq := bit fl 1, ownerKey := u32 img 0x10
        secs := (secs.filter Sec.known).map fun x => (x.type, x.body) }
      let needs := bit fl 1 || s.sv.signReq || imgSigns s.flash.stored
      let hdr2 := wantZero img 0 0x0E 2 ++ want 0 (signed || u32 img 0x10 == 0) 0x0E 0x10 ++ wantZero img 0 0x14 4 ++
        want 0 (v.serial != 0) 0x0E 0x18 ++ wantSerial v.serial hash base live ++
        want 0 (Config.sha256 ((img.take stop).drop 0x100) == hash) 7 0x20 ++
        want 0 (u32 img 0x40 / 256 == 0x4A09B0) 6 0x40 ++ want 0 (u8 img 0x40 == 0) 0x0D 0x40 ++
        want 0 (u64 img 0x44 == 0 || u64 img 0x44 == Config.devSerial.toNat) 6 0x44 ++ wantZero img 0 0x4C 180 ++
        want 0 (signed || !needs) 8 6 ++ (if signed then s.checkTrailer img stop else []) ++
        want 0 (!(live && s.sv.signReq) || v.ownerKey == s.sv.ownerKey) 8 0x10
      let off := fun (t : Nat) => match secs.find? fun x => x.type == t with | some x => x.off + 64 | none => 0
      match hdr2.map (fun f => (0, f)) ++ s.checkSecs v img 0 secs ++ s.checkSpan v live op off with
      | (t, f) :: _ => bad t f
      | [] => .ok v

end Sys2Proof.Machine
end

