-- ==== Sys2Proof/Machine/Apply.lean ====
section
/-!
DEFINITION. What an applied Survey changes (R40, R46 to R54, R221, R228, R394, R401, R431, R455): drains, the pool check, the
apply, its end, and the storing of the image.
-/

namespace Sys2Proof.Machine

/-! Changed partitions (R50). -/

/-- The entries of an image that name partition p, in the per-partition sections and in 0x0003, 0x0004 and 0x0009. -/
def Survey.entries (v : Survey) (p : Nat) : List (Option (List Byte)) :=
  let per := fun (t base size : Nat) => (v.sec t).map fun b => slice b (base + size * p) size
  let list := fun (t size : Nat) (names : List Byte → Bool) => some
    (((List.range (u64 (v.body t) 0)).map fun i => slice (v.body t) (64 + size * i) size).filter names).flatten
  [per 1 0 64, per 2 0 128, per 5 64 16, per 6 64 16, per 13 64 4, per 14 0 16,
   list 3 128 fun e => u8 e 0 == p, list 4 64 fun e => u8 e 2 == p || bit (u16 e 4) p, list 9 8 fun e => u8 e 0 == p]

/-- The partitions that the step from one image to another changes. -/
def changedParts (a b : Survey) : List Nat :=
  (List.range 16).filter fun p => (a.valid p || b.valid p) && a.entries p != b.entries p

/-! Draining (R51). -/

/-- The ring with one command of the innermost loop's iteration more. -/
def Ring.unpass (r : Ring) : Ring :=
  match r.frames with
  | .loop k st a l n :: t => { r with frames := .loop k st a (l + 1) n :: t }
  | _ => r

/-- A TIME_WAIT, a GATE_WAIT or an armed RED_STEP that waits returns to its ring unexecuted (R51, R394). It is the oldest command that
has begun, since it started after every earlier one had retired; commands with OVERLAP that began behind it run on and are
passed over when it starts again. -/
def State.giveBack (s : State) (p n : Nat) : State :=
  let r := s.ring p n
  match r.busy.head? with
  | none => s
  | some k =>
    let c := s.cmd p k
    let rest := r.busy.drop 1
    let m := (r.busy.map fun i => lenOf (s.cmd p i).bytes).sum
    let back := fun (s : State) =>
      let s := rest.foldl (fun s i => s.updCmd p i fun y => { y with slots := 0 }) s
      (s.updPart p fun x => { x with cmds := Tab.clear (· == k) x.cmds }).updRing p n fun r =>
        let pos := if (callOf r.frames).isSome then r.pos - m else modSub two32 r.pos m
        { (r.unpass.setPos pos) with
          started := r.started.filter (· != k), past := if rest.isEmpty then none else some r.pos }
    match c.wait with
    | .time _ => back s
    | .gate _ => back s
    | .red i => if (s.job i).state = .armed then back (s.updJob i Job.withdraw) else s
    | _ => s

/-- A partition starts to drain. -/
def State.drainPart (s : State) (p : Nat) : State :=
  (List.range 8).foldl (fun s n => s.giveBack p n) (s.updPart p fun x => { x with draining := true })

/-- Every command begun by a partition has retired; LOOPs and CALLs keep their place. -/
def State.partIdle (s : State) (p : Nat) : Bool := (List.range 8).all fun n => (s.ring p n).busy.isEmpty

/-! The pool check (R52, R238). -/

/-- The pages in use of each changed pool that a remaining partition holds fit the new pools (R43). -/
def State.poolsFit (s : State) (v : Survey) : Bool :=
  v.parts.all fun p => (List.range 16).all fun k =>
    s.sv.pool p k == v.pool p k ||
    let n := s.poolUsed p k
    let chans := ((s.part p).plc.seams.filter fun e => e.2.region.isNone && e.2.pool == k).flatMap fun e => e.2.d.chans
    n == 0 ||
    (match v.pool p k with
     | none => false
     | some x => decide (n ≤ x.gib * 16384) && chans.all (fun c => (s.chan c).state == .dead || bit x.chans c) &&
         decide (n ≤ ((setBits 512 x.chans).map (s.capOn s.flash.retired)).sum))

/-! The apply (R53). -/

/-- The partition whose ELIGIBLE mask holds a core. -/
def Survey.coreOwner (v : Survey) (c : Nat) : Option Nat := v.parts.find? fun p => bit (v.eligible p) c

/-- HST_BAR2_BIND[q] at a release of D2 (R401). -/
def Survey.bind (v : Survey) (q : Nat) : Nat :=
  match v.parts.find? fun p => v.fn p == q with
  | some p => 2 ^ 63 + p * 2 ^ 56
  | Option.none => 0

/-- HST_BAR2_BIND at an apply: an entry stays while its partition stays bound to its function. -/
def State.rebind (s : State) (a b : Survey) : State :=
  (List.range 32).foldl (init := s) fun s q =>
    let w := Tab.get 0 s.binds q
    let p := bits w 59 56
    if bit w 63 && a.valid p && a.fn p == q && b.valid p && b.fn p == q then s else { s with binds := Tab.set 0 s.binds q (b.bind q) }

/-- Regions that an image adds are EMPTY; those it removes, or gives another size or GUARD, are lost first (R221). -/
def State.reregion (s : State) (a b : Survey) : State :=
  (List.range 64).foldl (init := s) fun s r =>
    let same := match a.region r, b.region r with
      | some x, some y => x.size2m == y.size2m && x.guarded == y.guarded
      | none, none => true
      | _, _ => false
    let s := match a.region r with
      | none => s
      | some d =>
        let gone := fun (p : Nat) => !same || (match b.region r with | some y => y.owner != p && !bit y.readers p | none => true)
        let s := (s.parts.keys.filter gone).foldl (fun s p => s.regionUnmap p d) s
        if same then s else (s.regionFree r d.guarded).updRegion r fun _ => {}
    if same then s
    else match b.region r with
      | some _ => s.updRegion r fun _ => { state := .empty }
      | none => s

/-- Ways that turn into scratch are written back and invalid (R228). -/
def State.reway (s : State) (ways : Nat) : State :=
  let hit := fun (k : Nat) => bit ways (k % 16)
  let burst := fun (w : L2Way) => if w.dirty = 0 then 0 else wcBursts w.dirty
  let b := (s.mem.slices.map fun e => ((e.2.ways.filter fun w => hit w.1).map fun w => burst w.2).sum).sum
  let s := s.updMem fun m => { m with slices := Tab.adjust {} (fun _ sl => { sl with ways := Tab.clear hit sl.ways }) m.slices }
  if b = 0 then s else s.chargeIdle 8 b

/-- A core whose owner changes has its workspace set to zero. -/
def State.zeroCore (s : State) (c : Nat) : State :=
  s.updMem fun m => { m with ws := m.ws.zero (wsKey c 0) (2 ^ 21), wsPoison := Tab.clear (fun g => g / 2 ^ 18 == c) m.wsPoison }

/-- A partition's scratch reads zero. -/
def State.zeroScratch (s : State) (p : Nat) : State :=
  s.updMem fun m => { m with l2s := m.l2s.zero (l2sKey p 0) (2 ^ 28), l2sPoison := Tab.clear (fun g => g / 2 ^ 25 == p) m.l2sPoison }

/-- Decided changes of a partition are dropped (R283), its districts keep to its cores, and its levels to its mask. -/
def State.repart (s : State) (v : Survey) (p : Nat) : State :=
  let t := fun (_ : Nat) (x : Tensor) => { x with prop := none, decided := false, gains := 0 }
  let g := fun (_ : Nat) (x : Stage) =>
    { x with prop := none, decided := false, gains := 0, district := x.district &&& v.eligible p }
  let r := fun (n : Nat) (x : Ring) => { x with enable := x.enable && bit (v.levels p) n }
  let s := s.updPart p fun x => { x with
    rings := Tab.adjust {} r x.rings
    plc := { x.plc with tensors := Tab.adjust {} t x.plc.tensors, stages := Tab.adjust {} g x.plc.stages } }
  s.redistrict p

/-- The cadence of an image is placed as the pending set (R56, R337, R341). -/
def State.recadence (s : State) (v : Survey) : State :=
  let place := fun (x : Option CadSet) (s : State) => s.updCad fun c => { c with
    pend := some x, shadow := x.getD {}, status := if c.pend.isSome then 5 else c.status
    start := if c.live.isNone then s.tim.now else c.start }
  match v.cadence with
  | some x => place (some x) s
  | none => if s.tim.cad.live.isSome then place none s else s

/-- A JTAG unlock ends for partitions of a mask (R431). -/
def State.lockJtag (s : State) (keep : Nat) (crew : Bool) : State :=
  let d := s.dpt
  let u := d.unlock &&& keep
  let c := d.unlockCrew && crew
  if u = d.unlock && c = d.unlockCrew then s
  else ({ s with dpt := { d with unlock := u, unlockCrew := c } }).pit 8 2
    (unlockBody u c (s.flash.counters.getD 3 (0, 0)).1)

/-- The image takes effect as a whole (R53). -/
def State.applyImage (s : State) (v : Survey) : State :=
  let old := s.sv
  let changed := changedParts old v
  let gone := old.parts.filter fun p => !v.valid p
  -- partitions that cease to exist: tallies, then the FINAL record (R455)
  let s := gone.foldl (fun s p => ((((List.range 8).foldl (fun s n => s.updRing p n fun r => { r with enable := false, grp := r.grp.abort }) s)
    |>.abortTallies p fun _ => true).endTallies p).endInterval p 3) s
  let s := gone.foldl (fun s p => s.energyOut p) s
  -- the retired-page list (R40)
  let add := v.retired.eraseDups.filter fun a => !s.flash.retired.contains a
  let s := { s with flash := { s.flash with retired := s.flash.retired ++ add } }
  let was := s.scratchWays
  let s := { s with srv := { s.srv with applied := some v, old := s.srv.applied } }
  let s := s.reway (s.scratchWays &&& (0xFFFF - was))
  -- memory that changes hands
  let s := ((List.range 576).filter fun c => old.coreOwner c != v.coreOwner c).foldl (fun s c => s.zeroCore c) s
  let s := ((List.range 16).filter fun p => old.scratch p != v.scratch p).foldl (fun s p => s.zeroScratch p) s
  let s := s.reregion old v
  -- partitions that are new, and those that remain
  let s := (v.parts.filter fun p => !old.valid p).foldl (fun s p => s.updPart p fun _ =>
    { en := { interval := { start := s.tim.now, cyc := s.clk, unsync := !s.sync, recal := s.ckw.winRecal } } }) s
  let s := (changed.filter fun p => old.valid p && v.valid p).foldl (fun s p => s.repart v p) s
  let s := s.rebind old v
  let s := (s.jobs.filter fun e => e.2.state != .free && !(v.valid e.2.part && v.jobOk e.2.part e.2.job)).foldl (fun s e => s.jobFree e.1) s
  let s := s.recadence v
  -- a trap-stop bit of a partition without host debug is 0 (R86; log entry 93)
  let s : State := { s with trapStop := maskOf ((setBits 16 s.trapStop).filter v.hostDebug) }
  let s := s.lockJtag (maskOf ((List.range 16).filter v.jtagDebug)) true
  -- a re-survey ends a conflict of IDs (R357)
  if old.sec 8 == v.sec 8 && s.fab.source != 3 then s else ((s.fabEnable 7).fabAdopt).reroute

/-- The records of a partition that an apply has removed, which its rings did not take: energy records go to the device fault ring
(R455), held fault records are counted (R497). -/
def State.orphans (s : State) (p : Nat) : State :=
  let s := s.energyOut p
  let s := (s.part p).en.hold.foldl (fun s x =>
    s.enter none true (frec 0x001A 0 4 0xFF 0 0 s.tim.now 0 (leBytes 1 p) ++ padTo 256 ((s.signRec x).signed.getD []))) s
  (s.part p).flt.hold.foldl (fun s x => s.updFring none fun f => f.lose (u16 x.bytes 0) s.tim.now (x.kind == 0)) s

/-- A removed partition's pages are released, and its state is discarded (R53). -/
def State.removePart (s : State) (p : Nat) : State :=
  let pages := (s.part p).plc.seams.flatMap fun e => if e.2.region.isSome then [] else e.2.used.map fun u => (e.1, u.1)
  let s := pages.foldl (fun s x => s.giveSeam p x.1 x.2) (s.orphans p)
  ((s.zeroScratch p).forgetPart p).updPart p fun _ => {}

/-! Rows. -/

/-- An operation that handled an image ends with a code (R45, R485). -/
def State.srvDone (s : State) (code detail serial : Nat) (img : Survey) : State :=
  (s.srvLog s.srv.op code serial s.srv.changed img).srvEnd code detail

/-- The serial and hash that a new image is compared with (R43, R49). -/
def State.srvBase (s : State) : Option (Nat × List Byte) :=
  match s.srv.applied, s.live with
  | some a, true => some (a.serial, a.hash)
  | _, _ => s.flash.stored.map fun b => (u64 b 0x18, slice b 0x20 32)

/-- SURVEY_VALIDATION_END (R42 to R52): the fetched image, or none when it could not be read. -/
def execSurveyValidationEnd (img : Option (List Byte)) (s : State) : Host.Outcome State Fault Refusal :=
  let busy := s.srv.state == .fetching || s.srv.state == .validating
  if !s.dpt.up || !busy || s.srv.behind then .next s
  else
    let s := { s with srv := { s.srv with changed := 0 } }
    match img with
    | none => .next (s.srvDone 2 0 0 Survey.none)
    | some b =>
      match s.validate b s.srv.len s.srv.op s.srvBase with
      | .error (code, detail) => .next (s.srvDone code detail (u64 b 0x18) { Survey.none with hash := slice b 0x20 32 })
      | .ok v =>
        let keep := fun (s : State) (st : SrvState) => { s with srv := { s.srv with state := st, cand := some (v, b) } }
        match s.srv.op with
        | 1 => .next (s.srvDone 0 0 v.serial v)
        | 3 => .next (keep s .storing)
        | _ =>
          if !s.live then .next ((keep s .applying).applyImage v)
          else
            let ch := changedParts s.sv v
            let dr := ch.filter s.sv.valid
            let s := { s with srv := { s.srv with changed := maskOf ch } }
            if dr.isEmpty then .next (keep s .waiting)
            else
              let s := keep s .draining
              .next (dr.foldl (fun s p => s.drainPart p) { s with srv := { s.srv with drain := maskOf dr } })

/-- The operation ends with POOL_IN_USE, and the drain is lifted (R46, R52). -/
def State.poolInUse (s : State) (v : Survey) : State := s.srvDone 0x16 0 v.serial v

/-- SURVEY_DRAIN_END (R52 step 4). -/
def execSurveyDrainEnd (s : State) : Host.Outcome State Fault Refusal :=
  if s.srv.state != .draining || !s.dpt.up || !(setBits 16 s.srv.drain).all s.partIdle then .next s
  else
    match s.srv.cand with
    | none => .next s
    | some (v, _) => .next (if s.poolsFit v then { s with srv := { s.srv with state := .waiting } } else s.poolInUse v)

/-- A re-survey meets a shot window of `len` ns (R52 step 5). -/
def State.windowApply (s : State) (len : Nat) : State :=
  if s.srv.state != .waiting || len < 150000 || !s.dpt.up then s
  else
    match s.srv.cand with
    | none => s
    | some (v, _) =>
      if s.poolsFit v then ({ s with srv := { s.srv with state := .applying } }).applyImage v else s.poolInUse v

/-- SHOT_BEGIN (R335): scrub is owed (R216), holds start (R223), a waiting Survey is applied (R52), and the placement engine carries
out what it has decided (R273, R275). -/
def execShotBegin (k : Nat) (s : State) : Host.Outcome State Fault Refusal :=
  match s.tim.cad.live with
  | none => .next s
  | some x =>
    let len := x.winLen k
    let late := s.tim.now - (s.tim.cad.start + slotOffset (x.slot k))
    .next (s.slotFire k 3 fun _ s =>
      let s := (s.updCad fun c => { c with window := some len }).scrubOwe
      let s := (s.windowHolds (len - late)).windowApply len
      s.sv.parts.foldl (fun s p => (s.carryOut p).resumeMoves p) s)

/-- SURVEY_APPLY_END (R52 step 6): removed partitions are gone, drained ones fetch again, and storing begins. -/
def execSurveyApplyEnd (s : State) : Host.Outcome State Fault Refusal :=
  if s.srv.state != .applying || !s.dpt.up then .next s
  else
    let s := (s.parts.keys.filter fun p => !s.sv.valid p).foldl (fun s p => s.removePart p) s
    .next ({ s with srv := { s.srv with state := .storing } }).undrain

/-- SURVEY_STORE_END (R47): the image is in flash, and the one before it is kept. -/
def execSurveyStoreEnd (s : State) : Host.Outcome State Fault Refusal :=
  match s.srv.cand with
  | none => .next s
  | some (v, b) =>
    if s.srv.state != .storing || !s.dpt.up then .next s
    else .next (({ s with flash := { s.flash with prev := s.flash.stored, stored := some b } }).srvDone 0 0 v.serial v)

end Sys2Proof.Machine
end

