-- ==== Sys2Proof/Machine/Rings.lean ====
section
/-!
DEFINITION. Ring commands (R295 to R314): launches and the start of their gangs, graphs, semaphores, tests, loops, buffers,
waits, tallies, completions, invalidation, Lamp Check; their retirement (R287, R289, R294) and the answers of hosts (R406).
-/

namespace Sys2Proof.Machine

/-! LAUNCH (R295 to R297). -/

/-- The bindings of a LAUNCH of two slots: (port, conveyor, PFLAGS). -/
def launchBinds (b : List Byte) : List (Nat × Nat × Nat) :=
  if lenOf b < 2 then [] else (List.range 16).map fun i => (i, u8 b (64 + 4 * i), u8 b (65 + 4 * i))

/-- The fields of a LAUNCH that break a rule of their own. -/
def launchBad (b : List Byte) : Bool :=
  let nu := u8 b 46
  let nm := u8 b 47
  decide (lenOf b > 2) || decide (u8 b 16 > 63) || u8 b 18 == 0 || decide (u8 b 18 > 32) || decide (u8 b 19 > 15) ||
  u64 b 24 % 8 != 0 || u32 b 32 % 4096 != 0 || u32 b 36 % 4096 != 0 || decide (u32 b 32 + u32 b 36 > 0x180000) ||
  decide (u16 b 44 ≥ 4096) || decide (nu > 64) || decide (nm > 8) || ((nu != 0 || nm != 0) && u64 b 48 % 8 != 0) ||
  (decide (u8 b 56 > 63) && u8 b 56 != 0xFF) ||
  (launchBinds b).any fun e => decide (e.2.2 ≥ 16) || bits e.2.2 3 2 == 3 || u16 b (66 + 4 * e.1) != 0

/-- A valid binding does not fit its conveyor (R296). -/
def State.bindBad (s : State) (p stage : Nat) (e : Nat × Nat × Nat) : Bool :=
  let c := s.conv p e.2.1
  bit e.2.2 0 && c.declared && ((if bit e.2.2 1 then c.consumer else c.producer) != stage || bits e.2.2 3 2 != c.width)

/-- What a launch gives its gangs. -/
def State.kernelOf (s : State) (p k : Nat) (b : List Byte) : Kernel :=
  { part := p, ring := (s.cmd p k).ring, cmd := k, tally := s.cmdTally p k, vregs := 8 * u8 b 18, slot := u8 b 17
    wsBase := u32 b 32, wsSize := u32 b 36, split := u8 b 19, stream := u16 b 44, stage := u8 b 16
    binds := (launchBinds b).foldl (init := []) fun t e =>
      if bit e.2.2 0 then Tab.set none t e.1 (some { conveyor := e.2.1, pop := bit e.2.2 1, width := bits e.2.2 3 2 }) else t
    l2sSize := s.scratchOpen p }

/-- A launch starts: its bindings hold their conveyors, and the L1 of every core of its district is invalidated (R187). -/
def State.launch (s : State) (p k : Nat) (b args : List Byte) : State :=
  let kn := s.kernelOf p k b
  let s := kn.binds.foldl (init := s) fun s e =>
    match e.2 with
    | some x => s.updConv p x.conveyor fun c => { c with binders := c.binders + 1 }
    | none => s
  let s := (s.districtCores p kn.stage).foldl (fun s c => s.clearL1 c) s
  s.updCmd p k fun c => { c with wait := .gangs, gangs := ceilDiv (u32 b 20) 32, cores := (s.stg p kn.stage).district, kern := kn, args := args }

def semLaunch (p k : Nat) (s : State) : State :=
  let b := (s.cmd p k).bytes
  let slot := u8 b 17
  let va := u64 b 48
  let nu := u8 b 46
  let nm := u8 b 47
  let binds := launchBinds b
  if launchBad b || binds.any (s.bindBad p (u8 b 16)) then s.fail p k 0x01
  else if !(s.stg p (u8 b 16)).declared || (binds.any fun e => bit e.2.2 0 && !(s.conv p e.2.1).declared) || !s.asOn p slot then
    s.fail p k 0x02
  else if u32 b 20 = 0 then s
  else
    let (u, s) := s.cpRead p k slot va (4 * nu)
    let (m, s) := s.cpRead p k slot (va + 256) (8 * nm)
    match u, m with
    | some (du, pu), some (dm, pm) => if pu || pm then s.fail p k 0x04 va else s.launch p k b (padTo 256 du ++ dm)
    | _, _ => s.fail p k 0x03 va

/-- A gang as it starts (R61, R165, R296). -/
def newGang (kn : Kernel) (b args : List Byte) (i : Nat) : Gang :=
  let u := (List.range (u8 b 46)).foldl (fun t j => Tab.set 0 t j (BitVec.ofNat 32 (u32 args (4 * j)))) ([] : Tab Word)
  let u := if u8 b 56 = 0xFF then u else Tab.set 0 u (u8 b 56) (BitVec.ofNat 32 (32 * i))
  { live := true, k := kn, uregs := u
    mdesc := (List.range (u8 b 47)).foldl (fun t j => Tab.set 0 t j (BitVec.ofNat 64 (u64 args (256 + 8 * j)))) []
    lanes := (List.range 32).foldl (fun t l => Tab.set {} t l { pc := u64 b 24, rng := rngSeed (u32 b 40) (32 * i + l) }) []
    exited := maskOf ((List.range 32).filter fun l => decide (u32 b 20 ≤ 32 * i + l))
    firstT := 32 * i }

/-- A ring of a lower level than n has a gang that could start (R290). -/
def State.levelBusy (s : State) (p n : Nat) : Bool :=
  (s.part p).cmds.any fun e => decide (e.2.ring < n) && e.2.wait == .gangs && (List.range 36864).any fun g => s.gangFits p e.1 g

/-- GANG_START (R60, R61, R296): the next gang of a launch starts in slot g of its district. A core's first gang of the kernel
finds empty barriers, zero arrays and an empty L1 (R70, R79, R141), and an empty instruction cache (DESIGN CHOICE, log entry 105). The dispatch stage serves the lowest level with work (R290). -/
def execGangStart (p k g : Nat) (s : State) : Host.Outcome State Fault Refusal :=
  let c := s.cmd p k
  let y := coreOf g
  if !s.frontOn || !s.gangFits p k g || s.levelBusy p c.ring then .next s
  else
    let s := if (s.core y).kern = some (p, k) then s
      else s.updCore y fun x => { kern := some (p, k), retired := x.retired }
    let s := s.updGang g fun _ => newGang c.kern c.bytes c.args c.startedGangs
    .next (s.updCmd p k fun c => { c with startedGangs := c.startedGangs + 1, liveGangs := c.liveGangs + 1 })

/-! FENCE_SIGNAL and FENCE_WAIT (R301). -/

/-- Every earlier command of the ring has retired; a node's are those before its GRAPH_LAUNCH (R312). -/
def State.earlierDone (s : State) (p k : Nat) : Bool :=
  let c := s.cmd p k
  (s.ring p c.ring).busy.head? == some (c.parent.getD k)

/-- A FENCE_SIGNAL whose release has ended sets its word. -/
def State.signal (s : State) (p k : Nat) : State :=
  let b := (s.cmd p k).bytes
  let va := u64 b 16
  match s.semAt p (u8 b 24) va with
  | none => s.fail p k 0x03 va
  | some a =>
    match s.semRaise (s.req p (s.cmdTally p k) 2) a (u64 b 32) with
    | (true, s) => (s.await p k .done).semCheck
    | (false, s) => s.fail p k 0x04 va

/-- The address of a semaphore command is bad, its slot is not enabled, or its leaf lacks R, W and A: the code. -/
def State.semCode (s : State) (p : Nat) (b : List Byte) : Nat :=
  if u64 b 16 % 8 != 0 then 0x01 else if !s.asOn p (u8 b 24) then 0x02
  else if (s.semAt p (u8 b 24) (u64 b 16)).isNone then 0x03 else 0

def semFenceSignal (p k : Nat) (s : State) : State :=
  let b := (s.cmd p k).bytes
  match s.semCode p b with
  | 0 => if s.earlierDone p k then s.xport p k fun s => s.signal p k else s.await p k .earlier
  | c => s.fail p k c (if c = 0x03 then u64 b 16 else 0)

def semFenceWait (p k : Nat) (s : State) : State :=
  let b := (s.cmd p k).bytes
  match s.semCode p b with
  | 0 =>
    if u64 b 32 = 0 then s
    else
      match s.semAt p (u8 b 24) (u64 b 16) with
      | some a => ((s.homeRead (s.req p (s.cmdTally p k) 2) a).await p k (.sem a (u64 b 32))).semCmd p k
      | none => s
  | c => s.fail p k c (if c = 0x03 then u64 b 16 else 0)

/-! TIME_WAIT and GATE_WAIT (R302). -/

def semTimeWait (p k : Nat) (s : State) : State :=
  let t := u64 (s.cmd p k).bytes 16
  if t ≤ s.tim.now then s else s.await p k (.time t)

def semGateWait (p k : Nat) (s : State) : State :=
  let n := u16 (s.cmd p k).bytes 16
  if n = 0 then s else s.await p k (.gate n)

/-! COND and LOOP (R303 to R305). -/

/-- (w AND MASK) OP VALUE. -/
def testHolds (b : List Byte) (w : Nat) : Bool :=
  let m := w &&& u64 b 32
  let v := u64 b 40
  match u8 b 25 with
  | 0 => m == v
  | 1 => m != v
  | 2 => decide (m < v)
  | 3 => decide (m ≥ v)
  | 4 => decide (sgn 64 m < sgn 64 v)
  | 5 => decide (sgn 64 m ≥ sgn 64 v)
  | _ => false

/-- What the read of a test comes to: its word, a code, or a request to a host. -/
inductive TestRead where
  | word (w : Nat) (s : State)
  | bad (code : Nat) (s : State)
  | asked (s : State)

def State.testRead (s : State) (p k : Nat) : TestRead :=
  let b := (s.cmd p k).bytes
  let va := u64 b 16
  let slot := u8 b 24
  match s.xlate (tlbCp p) p slot va with
  | some { loc := .host i a _, r := true, .. } =>
    match s.hostAsk p i a 8 (.word p k (s.part p).epoch) with
    | some s => .asked ((s.await p k .word).cacheLeaf (tlbCp p) p slot va)
    | none => .bad 0x04 s
  | _ =>
    match s.cpRead p k slot va 8 with
    | (none, s) => .bad 0x03 s
    | (some (_, true), s) => .bad 0x04 s
    | (some (d, false), s) => .word (leVal d) s

/-- The address and operator of a test break a rule. -/
def testBad (b : List Byte) (loop : Bool) : Bool :=
  let op := u8 b 25
  if op = 255 then !loop else decide (op > 5) || u64 b 16 % 8 != 0

/-- The next commands are passed over, in the name of command k (R304). -/
def State.skipNext (s : State) (p k m : Nat) : State :=
  let n := (s.cmd p k).ring
  State.runSkip p n k (m + 1) ((s.updRing p n fun r => { r with skip := m }).await p k .skip)

/-- A COND has its word. -/
def State.condGo (s : State) (p k w : Nat) : State :=
  let b := (s.cmd p k).bytes
  if testHolds b w then s.skipNext p k (u16 b 26) else s.await p k .done

def semCond (p k : Nat) (s : State) : State :=
  let b := (s.cmd p k).bytes
  if testBad b false then s.fail p k 0x01
  else if !s.asOn p (u8 b 24) then s.fail p k 0x02
  else if u16 b 26 = 0 then s
  else
    match s.testRead p k with
    | .word w s => s.condGo p k w
    | .bad c s => s.fail p k c (u64 b 16)
    | .asked s => s

/-- Loops and calls that a ring is inside. -/
def Ring.loops (r : Ring) : Nat := (r.frames.filter fun f => match f with | .loop _ _ _ _ _ => true | _ => false).length
def Ring.calls (r : Ring) : Nat := (r.frames.filter fun f => match f with | .call _ _ _ _ _ => true | _ => false).length

def semLoop (p k : Nat) (s : State) : State :=
  let c := s.cmd p k
  let b := c.bytes
  let r := s.ring p c.ring
  let body := u16 b 26
  let inRing := (callOf r.frames).isNone
  if testBad b true then s.fail p k 0x01
  else if u8 b 25 != 255 && !s.asOn p (u8 b 24) then s.fail p k 0x02
  else if u32 b 28 = 0 || body = 0 then s.skipNext p k body
  else if inRing && (s.span p c.ring body r.pos).1 > r.grp.live.size - min (lenOf b) r.grp.live.size then s.fail p k 0x01
  else if inRing && !(s.span p c.ring body r.pos).2 then s.await p k .fit
  else if r.loops ≥ 4 then (s.updCmd p k fun c => { c with code := 0x07 }).skipNext p k body
  else (s.updRing p c.ring fun r => { r with frames := .loop k r.pos r.pos body 0 :: r.frames }).await p k .loopEnd

/-- A loop ends (R305); its body's slots go with it. -/
def State.endLoop (s : State) (p k code : Nat) : State :=
  let c := s.cmd p k
  match (s.ring p c.ring).frames with
  | .loop _ st a _ _ :: t =>
    let s := s.updRing p c.ring fun r => (Ring.setPos { r with frames := t } a).passBody (u16 c.bytes 26)
    s.updCmd p k fun c => { c with
      wait := .done, code := code, addr := if code = 0 then 0 else u64 c.bytes 16
      slots := if t.isEmpty then c.slots + modSub two32 a st else c.slots }
  | _ => s

/-- A loop's next iteration. -/
def State.nextLoop (s : State) (p k : Nat) : State :=
  let c := s.cmd p k
  (s.updRing p c.ring fun r => match r.frames with
    | .loop k' st _ _ n :: t => { r with frames := .loop k' st st (u16 c.bytes 26) n :: t }
    | _ => r).await p k .loopEnd

/-- A LOOP has its word. -/
def State.loopGo (s : State) (p k w : Nat) : State :=
  if testHolds (s.cmd p k).bytes w then s.endLoop p k 0 else s.nextLoop p k

/-- An iteration has ended: the count, then the test. -/
def State.iterate (s : State) (p k : Nat) : State :=
  let c := s.cmd p k
  let count := u32 c.bytes 28
  match (s.ring p c.ring).frames with
  | .loop k' st a l n :: t =>
    let s := s.updRing p c.ring fun r => { r with frames := .loop k' st a l (n + 1) :: t }
    if count != 0xFFFFFFFF && n + 1 ≥ count then s.endLoop p k 0
    else if u8 c.bytes 25 = 255 then s.nextLoop p k
    else
      match s.testRead p k with
      | .word w s => s.loopGo p k w
      | .bad code s => s.endLoop p k code
      | .asked s => s
  | _ => s

/-! CALL (R306). -/

def semRingCall (p k : Nat) (s : State) : State :=
  let c := s.cmd p k
  let b := c.bytes
  let m := u32 b 28
  if u64 b 16 % 64 != 0 || m > 2 ^ 20 then s.fail p k 0x01
  else if !s.asOn p (u8 b 24) then s.fail p k 0x02
  else if m = 0 then s
  else if (s.ring p c.ring).calls ≥ 4 then s.fail p k 0x07
  else
    (s.updRing p c.ring fun r => { r with frames := .call k (u64 b 16) (u8 b 24) m 0 :: r.frames }).await p k .callEnd

/-! Tallies (R307, R446). -/

/-- Open tallies of the device. -/
def State.openTallies (s : State) : Nat :=
  s.parts.foldl (fun n e => n + (e.2.en.tallies.filter fun t => t.2.opened).length) 0

def semTallyOpen (p k : Nat) (s : State) : State :=
  let c := s.cmd p k
  let t := u32 c.bytes 4
  if t = 0 then s.fail p k 0x01
  else if (Tab.get {} (s.part p).en.tallies t).opened then s.fail p k 0x08
  else if s.openTallies ≥ 65536 then s.fail p k 0x07
  else
    s.updPart p fun y => { y with en := { y.en with tallies := Tab.set {} y.en.tallies t {
      opened := true, ring := c.ring, start := s.tim.now, cyc := s.clk, unsync := !s.sync, recal := s.ckw.winRecal
      est := s.ckw.estimating } } }

def semTallyClose (p k : Nat) (s : State) : State :=
  let c := s.cmd p k
  let t := u32 c.bytes 4
  let x := Tab.get {} (s.part p).en.tallies t
  if t = 0 then s.fail p k 0x01
  else if !x.opened || x.ring != c.ring then s.fail p k 0x08
  else s.await p k .tally

/-! COMPLETE (R309 to R311). -/

/-- A COMPLETE whose release has ended: its Record Time, then the record. -/
def State.completeGo (s : State) (p k : Nat) : State :=
  (s.updCmd p k fun c => { c with stamp := s.tim.now }).complete p k

def semComplete (p k : Nat) (s : State) : State := (s.xport p k fun s => s.completeGo p k).semCheck

/-! XLT_INVAL (R253). -/

def semInval (p k : Nat) (s : State) : State :=
  let b := (s.cmd p k).bytes
  let slot := u8 b 16
  let base := u64 b 24
  let n := u64 b 32
  let whole := bit (u8 b 17) 0
  if u8 b 17 > 1 || base % 65536 != 0 || n % 65536 != 0 then s.fail p k 0x01
  else if !whole && n = 0 then s
  else if !s.asOn p slot then s.fail p k 0x02
  else if !s.canBump p then s.await p k .again
  else
    let (e, s) := s.bump p
    let s := if whole then s.dropTlb p slot 0 (2 ^ 55) else s
    let s := if whole then s.dropTlb p slot (2 ^ 55) (2 ^ 55) else s.dropTlb p slot base n
    s.await p k (.epoch e)

/-! LAMP_CHECK (R308, R492). -/

def semLamp (p k : Nat) (s : State) : State :=
  let b := (s.cmd p k).bytes
  let va := u64 b 16
  let slot := u8 b 24
  if va % 4096 != 0 then s.fail p k 0x01
  else if !s.asOn p slot then s.fail p k 0x02
  else if !s.vwritable (tlbCp p) p slot va 16384 then s.fail p k 0x03 va
  else
    let dead : Bool := match s.xlate (tlbCp p) p slot va with | some { loc := .host i _ _, .. } => (s.port i).dom != .ready | _ => false
    let (d, s) := s.capture p 1
    if dead then s.fail p k 0x05 va else (s.cpWrite p (s.cmd p k).ring (s.cmdTally p k) slot va d).semCheck

/-! Graphs (R312 to R314). -/

def State.graph (s : State) (p g : Nat) : Graph := Tab.get {} (s.part p).graphs g

/-- The node images of a version. -/
def State.graphImages (s : State) (p g v : Nat) : List (List Byte) :=
  (((s.graph p g).vers.find? fun x => x.version == v).map (·.nodes)).getD []

/-- A stored version, by the command that stored it, is held by a launch that has not retired. -/
def State.graphHeld (s : State) (p g id : Nat) : Bool :=
  (s.part p).cmds.any fun c => c.2.op == 2 && c.2.wait == .nodes && c.2.graph == g && c.2.version == id

/-- The current version of a graph, as it is stored: the newest of its number. -/
def Graph.now (g : Graph) : Option GraphVer := g.current.bind fun c => g.vers.find? fun v => v.version == c

/-- Versions that are neither current nor held are no longer stored. -/
def State.graphTrim (s : State) (p g : Nat) : State :=
  s.updPart p fun x => { x with graphs := Tab.upd {} x.graphs g fun y =>
    { y with vers := y.vers.filter fun v => (y.now.map (·.id)) == some v.id || s.graphHeld p g v.id } }

/-- Nodes stored by a partition. -/
def State.graphNodes (s : State) (p : Nat) : Nat :=
  (s.part p).graphs.foldl (fun n e => e.2.vers.foldl (fun n v => n + v.nodes.length) n) 0

/-- The commands a node may hold. -/
def nodeOp (op : Nat) : Bool := [0x01, 0x04, 0x05, 0x06, 0x07, 0x0B, 0x0C, 0x15].contains op

/-- The dependencies of a node's image. -/
def nodeDeps (b : List Byte) : List Nat := (List.range (u8 b 192)).map fun i => u16 b (194 + 2 * i)

/-- A node's image breaks a rule of R312. -/
def nodeBad (i : Nat) (b : List Byte) : Bool :=
  !nodeOp (u8 b 0) || decide (lenOf b > 3) || decide (u8 b 192 > 8) || u8 b 193 != 0 || !zeroAt b 210 46 ||
  !zeroAt b (64 * lenOf b) (192 - 64 * lenOf b) || (nodeDeps b).any fun d => decide (d ≥ i)

def semGraphPatch (p k : Nat) (s : State) : State :=
  let b := (s.cmd p k).bytes
  let g := u16 b 16
  let n := u16 b 18
  let first := u16 b 20
  let count := u16 b 22
  let expect := u32 b 24
  let slot := u8 b 29
  let va := u64 b 32
  let x := s.graph p g
  let cur := x.current.getD 0
  let del := bit (u8 b 28) 0
  let old := match x.current with | some c => s.graphImages p g c | none => []
  if g > 255 || u8 b 28 > 1 then s.fail p k 0x01
  else if count = 0 && !del then s
  else if !del && (n = 0 || n > 4096 || first + count > n) then s.fail p k 0x01
  else if del && x.current.isNone then s.fail p k 0x02
  else if expect != 0xFFFFFFFF && expect != cur then s.fail p k 0x09
  else if del then (s.updPart p fun y => { y with graphs := Tab.upd {} y.graphs g fun z => { z with current := none } }).graphTrim p g
  else if !s.asOn p slot then s.fail p k 0x02
  else
    match s.cpRead p k slot va (256 * count) with
    | (none, s) => s.fail p k 0x03 va
    | (some (_, true), s) => s.fail p k 0x04 va
    | (some (d, false), s) =>
      let img := (List.range count).map fun i => slice d (256 * i) 256
      let kept := (List.range n).all fun i => (decide (first ≤ i) && decide (i < first + count)) || decide (i < old.length)
      if !kept || (img.zipIdx.any fun e => nodeBad (first + e.2) e.1) then s.fail p k 0x01
      else
        let v : GraphVer := { id := k, version := (cur + 1) % two32, nodes := (List.range n).map fun i =>
          if first ≤ i && i < first + count then img.getD (i - first) [] else old.getD i [] }
        let t := (s.updPart p fun y => { y with graphs := Tab.upd {} y.graphs g fun z =>
          { current := some v.version, vers := v :: z.vers } }).graphTrim p g
        if t.graphNodes p > 65536 then s.fail p k 0x07 else t

/-- What a node's command does. -/
def nodeSpec (op : Nat) : CmdSpec :=
  match op with
  | 0x01 => { flags := 1, used := [(16, 41), (64, 64)], sem := semLaunch }
  | 0x04 => { flags := 1, used := [(16, 9), (28, 4)], sem := semCopy }
  | 0x05 => { flags := 1, used := [(16, 11), (32, 960)], sem := semCopyInline }
  | 0x06 => { flags := 2, used := [(16, 9), (32, 8)], sem := semFenceSignal }
  | 0x07 => { used := [(16, 9), (32, 8)], sem := semFenceWait }
  | 0x0B => { used := [(16, 8)], sem := semTimeWait }
  | 0x0C => { used := [(16, 2)], sem := semGateWait }
  | 0x15 => { used := [(16, 48)], sem := semStep }
  | _ => { sem := fun p k s => s.fail p k 0x01 }

/-- A node of a GRAPH_LAUNCH starts as a command of its own. -/
def State.startNode (s : State) (p k i : Nat) (img : List Byte) : State :=
  let k' := (s.part p).nextK
  let c : Cmd := { ring := (s.cmd p k).ring, bytes := img.take (64 * lenOf img), inRing := false, parent := some k, node := i }
  let s := s.updPart p fun x => { x with nextK := k' + 1, cmds := Tab.set {} x.cmds k' c }
  let s := s.updCmd p k fun c => { c with nodesDue := c.nodesDue.filter (· != i) }
  (nodeSpec (u8 img 0)).run p k' s

/-- The nodes whose dependencies have retired start. -/
def State.startNodes (s : State) (p k : Nat) : State :=
  let c := s.cmd p k
  let imgs := (((s.graph p c.graph).vers.find? fun x => x.id == c.version).map (·.nodes)).getD []
  c.nodesDue.foldl (init := s) fun s i =>
    let img := imgs.getD i []
    if (s.cmd p k).wait == .nodes && (nodeDeps img).all fun d => !c.nodesLeft.contains d then s.startNode p k i img else s

def semGraphLaunch (p k : Nat) (s : State) : State :=
  let b := (s.cmd p k).bytes
  let g := u16 b 16
  let x := s.graph p g
  if g > 255 then s.fail p k 0x01
  else
    match x.current with
    | none => s.fail p k 0x02
    | some cur =>
      let v := if u32 b 20 = 0 then cur else u32 b 20
      match x.vers.find? fun y => y.version == v with
      | none => s.fail p k 0x09
      | some y =>
        let l := List.range y.nodes.length
        (s.updCmd p k fun c => { c with wait := .nodes, graph := g, version := y.id, nodesLeft := l, nodesDue := l }).startNodes p k

/-! Retirement (R287, R289, R294, R297, R299). -/

/-- The wait of a command is satisfied. -/
def State.satisfied (s : State) (p k : Nat) : Bool :=
  let c := s.cmd p k
  match c.wait with
  | .done => true
  | .gangs => c.startedGangs == c.gangs && c.liveGangs == 0
  | .copies => c.copied
  | .epoch e => s.passed p e
  | .nodes => c.nodesLeft.isEmpty
  | _ => false

/-- A placement declaration that waited for its pages or its epoch is tried again. -/
def placeSem (kind : Nat) : Nat → Nat → State → State :=
  match kind with
  | 1 => semTensor | 2 => semRelease State.cvClose | 4 => semConveyor | 5 => semRegionLoad | 6 => semSeal
  | _ => fun _ _ s => s

/-- A command that must be tried again is. -/
def State.tryAgain (s : State) (p k : Nat) : State :=
  let c := s.cmd p k
  if c.wait != .again then s
  else
    let s := s.await p k .done
    if c.op = 0x10 then semInval p k s else placeSem (u8 c.bytes 16) p k s

/-- The command is the next to retire: a node at any time, else the first of its ring that has started. -/
def State.mayRetire (s : State) (p k : Nat) : Bool :=
  let c := s.cmd p k
  c.parent.isSome || (s.ring p c.ring).busy.head? == some k

/-- HEAD passes a retired command's slots; RETIRED counts it; the space interrupt is raised when it is due (R287, R315). -/
def State.freeSlots (s : State) (p n k m : Nat) : State :=
  let s := s.updRing p n fun r =>
    let h := wrapAdd two32 r.head m
    { r with
      head := h, started := r.started.filter (· != k), retired := wrapAdd two64 r.retired 1
      bells := r.bells.filter fun e => decide (0 < modSub two32 e.1 h ∧ modSub two32 e.1 h ≤ two32 / 2) }
  s.spaceCheck p n

/-- A launch's cores and conveyors are free of it. -/
def State.launchEnd (s : State) (p k : Nat) (kn : Kernel) : State :=
  let s := (s.unbind p kn)
  { s with cores := Tab.adjust {} (fun _ y => if y.kern = some (p, k) then { y with kern := none } else y) s.cores }

/-- A command retires. -/
def State.retire (s : State) (p k : Nat) : State :=
  let c := s.cmd p k
  let n := c.ring
  let s := match c.lostAt with
    | some a => s.report p 0x0002 2 ((s.engines_ p).headD 0) a (leBytes 4 c.lostN)
    | none => s
  let s := if c.op = 0x11 && u8 c.bytes 16 = 6 && u8 c.bytes 17 = 5 && c.code = 0 then s.sealRegion (u16 c.bytes 18) else s
  let s := if c.code = 0 then s else s.updRing p n fun r => { r with err := r.err.latch c c.code c.addr c.info }
  let s := if c.op = 1 then s.launchEnd p k c.kern else s
  let s := s.updPart p fun x => { x with cmds := Tab.clear (· == k) x.cmds }
  let s := if c.op = 2 then s.graphTrim p c.graph else s
  let s := match c.parent with
    | some j => (s.updCmd p j fun y => { y with nodesLeft := y.nodesLeft.filter (· != c.node) }).startNodes p j
    | none => s.freeSlots p n k c.slots
  (s.placeAfter p).semCheck

/-- What lets a command go on before it can retire: copies move, an epoch or pages are tried again, a node's signal follows the
commands before its graph, a loop iterates, a buffer returns. -/
def State.pushOn (s : State) (p k : Nat) : State :=
  let c := s.cmd p k
  let r := s.ring p c.ring
  let inner := match r.frames with | f :: _ => f.cmd == k | [] => false
  match c.wait with
  | .copies => s.copyGo p k
  | .again => s.tryAgain p k
  | .fit => semLoop p k s
  | .earlier => if s.earlierDone p k then s.xport p k fun s => s.signal p k else s
  | .loopEnd => if inner && r.busy.isEmpty && r.ended then s.iterate p k else s
  | .callEnd =>
    if inner && r.busy.isEmpty && r.ended then
      (s.updRing p c.ring fun r => { r with frames := r.frames.drop 1 }).await p k .done
    else s
  | _ => s

/-- COMMAND_RETIRE (R289): the oldest started command of a ring, or a node of a graph, retires when what it waits for has
happened. While the device powers down in order, a copy's transfers still drain (R197). -/
def execCommandRetire (p k : Nat) (s : State) : Host.Outcome State Fault Refusal :=
  if !(s.part p).cmds.any fun e => e.1 == k then .next s
  else if !s.frontOn then
    let drains := s.rst.powering && s.rel 3 && !s.rst.tripped && (s.cmd p k).wait == .copies
    .next (if drains then s.copyGo p k else s)
  else
    let s := s.pushOn p k
    let still := (s.part p).cmds.any fun e => e.1 == k
    .next (if still && s.satisfied p k && s.mayRetire p k then s.retire p k else s).engineActions

/-! Answers of hosts (R194, R303, R406). -/

/-- The waiter of a completion has its answer. -/
def State.hostAnswer (s : State) (w : Waiter) (ok : Bool) (d : List Byte) : State :=
  match w with
  | .xport p k =>
    let s := s.updCmd p k fun c => { c with xports := c.xports - 1 }
    let c := s.cmd p k
    -- writes lost with a failed read are handled as R193 provides (R406)
    let s := if ok then s else s.updCmd p k fun c => { c with code := if c.code = 0 then 0x05 else c.code }
    if c.xports != 0 then s else if c.op = 0x0F then (s.completeGo p k).semCheck else s.signal p k
  | .word p k _ =>
    let c := s.cmd p k
    let va := u64 c.bytes 16
    if c.op = 9 then (if ok then s.loopGo p k (leVal (padTo 8 d)) else s.endLoop p k 0x04)
    else if ok then s.condGo p k (leVal (padTo 8 d)) else s.fail p k 0x04 va
  | _ => s.hostData w ok d

/-- HOST_COMPLETION (R194): a completion under a tag of the port; the oldest read that waits for a tag takes it (R395). -/
def execHostCompletion (port tag : Nat) (ok : Bool) (data : List Byte) (s : State) : Host.Outcome State Fault Refusal :=
  match Tab.get none (s.port port).reqs tag with
  | none => .next s
  | some w =>
    .next ((State.sendAsks port 1 (s.updPort port fun x => { x with reqs := Tab.set none x.reqs tag none })).hostAnswer w ok data)

/-! The rows. -/

def execLaunch (p n : Nat) (c : List Byte) (s : State) : Host.Outcome State Fault Refusal := .next (ringCmd (nodeSpec 0x01) 0x01 p n c s)
def execGraphLaunch (p n : Nat) (c : List Byte) (s : State) : Host.Outcome State Fault Refusal :=
  .next (ringCmd { flags := 1, used := [(16, 2), (20, 4)], sem := semGraphLaunch } 0x02 p n c s).engineActions
def execGraphPatch (p n : Nat) (c : List Byte) (s : State) : Host.Outcome State Fault Refusal :=
  .next (ringCmd { used := [(16, 14), (32, 8)], sem := semGraphPatch } 0x03 p n c s)
def execFenceSignal (p n : Nat) (c : List Byte) (s : State) : Host.Outcome State Fault Refusal :=
  .next (ringCmd (nodeSpec 0x06) 0x06 p n c s)
def execFenceWait (p n : Nat) (c : List Byte) (s : State) : Host.Outcome State Fault Refusal := .next (ringCmd (nodeSpec 0x07) 0x07 p n c s)
def execCond (p n : Nat) (c : List Byte) (s : State) : Host.Outcome State Fault Refusal :=
  .next (ringCmd { used := [(16, 12), (32, 16)], sem := semCond } 0x08 p n c s)
def execLoop (p n : Nat) (c : List Byte) (s : State) : Host.Outcome State Fault Refusal :=
  .next (ringCmd { used := [(16, 32)], sem := semLoop } 0x09 p n c s)
def execRingCall (p n : Nat) (c : List Byte) (s : State) : Host.Outcome State Fault Refusal :=
  .next (ringCmd { used := [(16, 9), (28, 4)], sem := semRingCall } 0x0A p n c s)
def execTimeWait (p n : Nat) (c : List Byte) (s : State) : Host.Outcome State Fault Refusal := .next (ringCmd (nodeSpec 0x0B) 0x0B p n c s)
def execGateWait (p n : Nat) (c : List Byte) (s : State) : Host.Outcome State Fault Refusal := .next (ringCmd (nodeSpec 0x0C) 0x0C p n c s)
def execTallyOpen (p n : Nat) (c : List Byte) (s : State) : Host.Outcome State Fault Refusal :=
  .next (ringCmd { sem := semTallyOpen } 0x0D p n c s)
def execTallyClose (p n : Nat) (c : List Byte) (s : State) : Host.Outcome State Fault Refusal :=
  .next (ringCmd { sem := semTallyClose } 0x0E p n c s)
def execComplete (p n : Nat) (c : List Byte) (s : State) : Host.Outcome State Fault Refusal :=
  .next (ringCmd { flags := 2, used := [(16, 10), (28, 4)], sem := semComplete } 0x0F p n c s)
def execXltInval (p n : Nat) (c : List Byte) (s : State) : Host.Outcome State Fault Refusal :=
  .next (ringCmd { used := [(16, 2), (24, 16)], sem := semInval } 0x10 p n c s)
def execRelease (p n : Nat) (c : List Byte) (s : State) : Host.Outcome State Fault Refusal := placeCmd (semRelease State.cvClose) 2 p n c s
def execLampCheck (p n : Nat) (c : List Byte) (s : State) : Host.Outcome State Fault Refusal :=
  .next (ringCmd { used := [(16, 9)], sem := semLamp } 0x16 p n c s)

/-- RESERVED_OPCODE (R292, R293): 0x00 and 0x17 to 0xFF, and a PLACE_DECLARE of a reserved KIND (R263). -/
def execReservedOpcode (p n : Nat) (c : List Byte) (s : State) : Host.Outcome State Fault Refusal :=
  let op := u8 c 0
  let kind := op == 0x11 && (u8 c 16 == 0 || decide (u8 c 16 > 7))
  .next (ringCmd { sem := fun p k s => s.fail p k 0x01 } (if op ≤ 0x16 && !kind then 0 else op) p n c s)

end Sys2Proof.Machine
end

