-- ==== Sys2Proof/Machine/Ports.lean ====
section
/-!
DEFINITION. The host ports (R395 to R414): BAR2, configuration, port-domain and function resets.
-/

namespace Sys2Proof.Machine

/-! Partitions of a function that a reset strikes. -/

/-- Pending commits of a partition end with ABORTED (R58). -/
def State.abortGroups (s : State) (p : Nat) : State :=
  s.updPart p fun x => { x with
    rings := Tab.adjust {} (fun _ r => { r with grp := r.grp.abort }) x.rings
    sump := x.sump.abort, fltGrp := x.fltGrp.abort, en := { x.en with ering := x.en.ering.abort }
    adits := Tab.adjust { live := {}, shadow := {} } (fun _ g => g.abort) x.adits
    plc := { x.plc with seams := Tab.adjust {} (fun _ y => { y with grp := y.grp.abort }) x.plc.seams } }

/-- Step 2 of R410: every ring guilty and left disabled, tallies closed aborted, reduction jobs freed. -/
def State.stopPart (s : State) (p : Nat) : State :=
  let s := (s.stopRings p 4).abortTallies p fun _ => true
  (s.jobs.filter fun e => e.2.state != .free && e.2.part == p).foldl (fun s e => s.jobFree e.1) s

/-- A function's configuration space as a reset leaves it (R410, R412): BAR2 has its largest size again (R398), and DEV_PART_SEL
follows (R21). -/
def State.resetFn (s : State) (q : Nat) : State :=
  let b := if q % 16 = 0 then (s.port (q / 16)).bar2 else 36
  s.updFn q fun f => { f with partSel := none, cfg := { bar2 := b, bar2Next := b } }

/-! Port-domain resets (R409, R410). -/

/-- Stores to a host that has been declared dead are lost, and reads of it fail (R193, R194). -/
def State.hostDead (s : State) (i : Nat) : State :=
  let goal := fun (e : StEntry) => match e.loc with | .host j _ _ => j == i | _ => false
  let s := s.subs.foldl (fun s x => (x.2.filter goal).foldl (fun s e => s.storeLost x.1 e) s) s
  let ws := (s.port i).reqs.filterMap (·.2) ++ (s.port i).asks.map (·.2.2.2)
  ws.foldl (fun s w => s.hostAnswer w false []) (s.updPort i fun x => { x with reqs := [], asks := [] })

/-- Mailbox operations of the port's functions end with ABORTED (R427); what an update had begun to write is invalid (R434). -/
def State.mailAbort (s : State) (hit : Nat → Bool) : State :=
  let s := (List.range 34).foldl (init := s) fun s q =>
    let m := (s.fn q).mail
    if hit q && (m.state = 1 || m.state = 2) then s.mailEnd q 0x10 else s
  let s := match s.dpt.running with
    | some q => if hit q then let s := s.cutUpdate; { s with dpt := { s.dpt with running := none } } else s
    | none => s
  s.mailNext

/-- A trigger strikes a port that is READY: 1 PERST, 2 DL_Down, 3 Hot Reset, 4 credits. Vectors raised from now on wait for the port
(R476), so its functions are reset first. -/
def State.portDown (s : State) (i trigger : Nat) : State :=
  let primary := s.primary == i
  let s := s.updPort i fun x => { x with
    dom := if trigger = 1 then .inReset else .lost, rate := 0, width := 0, flit := false, linkUp := false, badAt := s.clk, hit := true
    downs := satAdd 0xFF x.downs 1 }
  let s := (List.range 16).foldl (fun s f => s.resetFn (16 * i + f)) s
  let s := s.hostDead i
  let ps := s.sv.parts.filter fun p => s.sv.port p == i
  let s := ps.foldl (fun s p => (s.stopPart p).abortGroups p) s
  let s := s.mailAbort fun q => decide (q < 32) && q / 16 == i
  let s := (s.reportDev 0x0011 7 i 0 (leBytes 1 trigger) true).pit 9 2 (leBytes 1 i ++ leBytes 1 trigger)
  match s.srv.state with
  | .fetching | .validating | .draining | .waiting => if primary then s.srvEnd 0x17 0 else s
  | _ => s

/-- A trigger of R409. -/
def State.portTrigger (s : State) (i trigger : Nat) : State :=
  if i < 2 && (s.port i).present && (s.port i).dom == .ready then (s.portDown i trigger).copiesGo else s

/-- PERST (R409). -/
def execPerst (port : Nat) (s : State) : Host.Outcome State Fault Refusal :=
  if port ≥ 2 then .next s
  else
    let s := s.portTrigger port 1
    .next (s.updPort port fun x => { x with perst := true, dom := .inReset })

/-- PERST_RELEASE (R460): the port may train; after a trigger it shows LOST until it is ready (R409). -/
def execPerstRelease (port : Nat) (s : State) : Host.Outcome State Fault Refusal :=
  if port ≥ 2 || !(s.port port).perst then .next s
  else .next (s.updPort port fun x => { x with perst := false, dom := if x.hit then .lost else x.dom })

def execDlDown (port : Nat) (s : State) : Host.Outcome State Fault Refusal := .next (s.portTrigger port 2)
def execHotReset (port : Nat) (s : State) : Host.Outcome State Fault Refusal := .next (s.portTrigger port 3)
def execCreditTimeout (port : Nat) (s : State) : Host.Outcome State Fault Refusal := .next (s.portTrigger port 4)

/-- LINK_RECOVERY (R411): nothing is declared dead. -/
def execLinkRecovery (port : Nat) (s : State) : Host.Outcome State Fault Refusal :=
  if (s.port port).linkUp then .next (s.updPort port fun x => { x with retrains := satAdd 0xFFFF x.retrains 1 }) else .next s

/-- PORT_READY (R396, R410, R460): the link has trained and the port is ready; vectors that waited go out (R476). -/
def execPortReady (port rate width : Nat) (flit : Bool) (s : State) : Host.Outcome State Fault Refusal :=
  let x := s.port port
  let ok := port < 2 && s.rel 2 && x.present && !x.perst && decide (1 ≤ rate ∧ rate ≤ 6) && [1, 2, 4, 8].contains width
  if !ok then .next s
  else
    let s := s.updPort port fun x => { x with
      dom := .ready, rate := rate, width := width, flit := flit, linkUp := true, hit := false }
    .next ((List.range 16).foldl (fun s f => s.flushMsix (16 * port + f)) s)

/-- One function's reset (R412). -/
def State.flr (s : State) (q : Nat) : State :=
  let s := (s.bound q).foldl (fun s p => s.stopPart p) s
  { s.resetFn q with binds := Tab.set 0 s.binds q (s.sv.bind q) }

/-- FUNCTION_LEVEL_RESET (R412): that of a physical function clears VF Enable, and its virtual functions go through the same. -/
def execFunctionLevelReset (q : Nat) (s : State) : Host.Outcome State Fault Refusal :=
  if q ≥ 32 || !s.fnOn q || (s.port (q / 16)).dom != .ready then .next s
  else
    let qs := if q % 16 = 0 then (List.range 16).map (q + ·) else [q]
    .next (qs.foldl (fun s q => s.flr q) s)

/-! BAR2 (R398, R399, R407, R408). -/

/-- A request on a port comes from its host (R408). -/
def State.fromHost (s : State) (r : HostReq) : Bool :=
  let h := (s.port r.port).hostRid
  decide (h % 65536 ≤ r.rid ∧ r.rid ≤ h / 65536)

/-- The size of function q's BAR2 (R398), log₂. -/
def State.bar2Log (s : State) (q : Nat) : Nat := if q % 16 = 0 then (s.fn q).cfg.bar2 else 36

/-- The partition and slot that function q's BAR2 maps (R399): none in the cases of its first row that concern the binding. -/
def State.bar2Bind (s : State) (q : Nat) : Option (Nat × Nat) :=
  let w := Tab.get 0 s.binds q
  let p := bits w 59 56
  let slot := bits w 55 48
  if bit w 63 && (s.bound q).contains p && s.asOn p slot then some (p, slot) else none

/-- Every byte of a range translates to device memory with the permission needed. -/
def State.bar2Pieces (s : State) (p slot o n : Nat) (wr : Bool) : Option (List (Nat × Nat × Nat)) :=
  let ps := (linePieces (n + 1) o 0 (List.replicate n 0#8)).map fun e =>
    match s.xlate tlbNone p slot (o + e.1) with
    | some { loc := .dev a, r := r, w := w, .. } => if (if wr then w else r) then some (e.1, a, e.2.length) else none
    | _ => none
  if ps.all Option.isSome then some (ps.filterMap id) else none

/-- A memory request reaches function q of the port: 0 it is dropped without trace, 1 it is an Unsupported Request, 2 it is served. -/
def State.bar2Reach (s : State) (r : HostReq) : Nat :=
  let q := 16 * r.port + r.fn
  if r.port ≥ 2 || r.fn ≥ 16 || (s.port r.port).dom != .ready || !s.rel 2 || s.rst.tripped then 0
  else if !s.fnOn q || !(s.fn q).cfg.memEn || (s.fn q).cfg.d3 || !(s.port r.port).dataOk then 1
  else 2

/-- A request that is an Unsupported Request: a posted one is reported through AER (R395, R408). -/
def State.unsupported (s : State) (r : HostReq) : State := s.send r.port (.unsupported r.fn)

def State.complete_ (s : State) (port : Nat) (d : List Byte) (poisoned ok : Bool) : State := s.send port (.completion d poisoned ok)

def State.bar2Miss (s : State) (port : Nat) : State := s.updPort port fun x => { x with bar2Miss := satAdd 0xFFFF x.bar2Miss 1 }
def State.peerRefused (s : State) (port : Nat) : State := s.updPort port fun x => { x with peerRefused := satAdd 0xFFFF x.peerRefused 1 }

/-- BAR2_READ (R399): served at the home slice, and answered with a completion. -/
def execBar2Read (r : HostReq) (len : Nat) (s : State) : Host.Outcome State Fault Refusal :=
  let q := 16 * r.port + r.fn
  match s.bar2Reach r with
  | 0 => .next s
  | 1 => .next (s.complete_ r.port [] false false)
  | _ =>
    if len = 0 || r.off + len > 2 ^ s.bar2Log q then .next s
    else if !s.fromHost r then .next ((s.complete_ r.port [] false false).peerRefused r.port)
    else
      let miss := (s.complete_ r.port (List.replicate len 0xFF#8) false true).bar2Miss r.port
      match s.bar2Bind q with
      | none => .next miss
      | some (p, slot) =>
        match s.bar2Pieces p slot r.off len false with
        | none => .next miss
        | some l =>
          -- requests to a held channel wait (R223)
          if l.any fun e => s.lineHeld e.2.1 then .next s else
          let s := l.foldl (fun s e => s.homeRead (s.req p 0 5) e.2.1) s
          let d := l.flatMap fun e => s.devRead e.2.1 e.2.2
          let s := s.charge p 0 10 (ceilDiv len 64)
          .next (s.complete_ r.port d (l.any fun e => s.poisonAt e.2.1) true)

/-- A range lies wholly in a tensor declared with LANDING, of a partition with the grant (R408). -/
def State.landing (s : State) (p slot o n : Nat) : Bool :=
  s.sv.grant p 0 && (s.part p).plc.tensors.any fun e =>
    bit e.2.flags 1 && (s.tensorSlots p e.2).contains slot && decide (e.2.va ≤ o ∧ o + n ≤ e.2.va + e.2.size)

/-- BAR2_WRITE (R399, R408). -/
def execBar2Write (r : HostReq) (data : List Byte) (s : State) : Host.Outcome State Fault Refusal :=
  let q := 16 * r.port + r.fn
  let n := data.length
  let refused := (s.unsupported r).peerRefused r.port
  if s.bar2Reach r = 1 then .next (s.unsupported r)
  else if s.bar2Reach r != 2 || n = 0 || r.off + n > 2 ^ s.bar2Log q then .next s
  else
    let peer := !s.fromHost r
    match s.bar2Bind q with
    | none => .next (if peer then refused else s.bar2Miss r.port)
    | some (p, slot) =>
      if peer && !s.landing p slot r.off n then .next refused
      else
        match s.bar2Pieces p slot r.off n true with
        | none => .next (s.bar2Miss r.port)
        | some l =>
          -- a slice that is full of entries of held channels holds further writes (R238)
          if l.any fun e => s.writeHeld e.2.1 then .next s else
          let s := l.foldl (fun s e => s.homeWrite (s.req p 0 5) e.2.1 (slice data e.1 e.2.2)) s
          .next ((s.charge p 0 10 (ceilDiv n 64)).semCheck)

/-! Configuration (R395, R397, R398). -/

/-- What a configuration read returns. -/
def State.cfgRead (s : State) (q : Nat) : CfgReq → Option (List Byte)
  | .readVendor => some (leBytes 2 (if q % 16 = 0 then 0x1F6E else 0xFFFF))
  | .readDevice => some (leBytes 2 (if q % 16 = 0 then 0x4A09 else 0x4A19))
  | .readRevision => some (leBytes 1 0xB0)
  | .readClass => some (leBytes 3 0x120000)
  | .readSubsystem => some (leBytes 4 Config.subsystemIds)
  | .readSerial => some (leBytes 8 Config.devSerial.toNat)
  | .readBar2Log => some (leBytes 1 (s.bar2Log q))
  | .readVf => some (leBytes 1 (s.port (q / 16)).vfs ++ leBytes 1 (b2n (s.fn (q / 16 * 16)).cfg.vfEn))
  | _ => none

/-- What a configuration write changes. -/
def State.cfgWrite (s : State) (q : Nat) (r : CfgReq) : State :=
  let pf := q % 16 == 0
  let put := fun (f : FnCfg → FnCfg) => s.updFn q fun x => { x with cfg := f x.cfg }
  match r with
  | .memEnable on => put fun c => { c with memEn := on, bar2 := if on && !c.memEn then c.bar2Next else c.bar2 }
  | .vfEnable on => if pf then put fun c => { c with vfEn := on } else s
  | .maxPayload b => if b = 128 || b = 256 || b = 512 then put fun c => { c with mps := b } else s
  | .maxRead b => if isPow2 b && decide (128 ≤ b ∧ b ≤ 4096) then put fun c => { c with mrrs := b } else s
  | .power d3 => put fun c => { c with d3 := d3 }
  | .resizeBar2 n =>
    if pf && decide (36 ≤ n ∧ n ≤ (s.port (q / 16)).bar2)
    then put fun c => { c with bar2Next := n, bar2 := if c.memEn then c.bar2 else n } else s
  | .msix on mask => (put fun c => { c with msixEn := on, msixMask := mask }).flushMsix q
  | _ => s

/-- CONFIG_REQUEST (R397, R410, R460): answered with Request Retry Status until the port is ready. -/
def execConfigRequest (port fn : Nat) (r : CfgReq) (s : State) : Host.Outcome State Fault Refusal :=
  let x := s.port port
  let q := 16 * port + fn
  if port ≥ 2 || fn ≥ 16 || !s.rel 2 || !x.present || x.perst then .next s
  else if x.dom != .ready then .next (s.updPort port fun x => { x with out := x.out ++ [.retry] })
  else if !s.fnOn q then .next (s.complete_ port [] false false)
  else
    match s.cfgRead q r with
    | some d => .next (s.complete_ port d false true)
    | none => .next ((s.cfgWrite q r).complete_ port [] false true)

end Sys2Proof.Machine
end

