-- ==== Sys2Proof/Machine/Deputy.lean ====
section
/-!
DEFINITION. Deputy, Crew and identity (R415 to R434), and the coherent agents (R259 to R261).
-/

namespace Sys2Proof.Machine

/-! Firmware images (R419, R420). -/

/-- The code of the first check of R420 that an image of a kind fails; 0 when it is accepted. -/
def State.fwCheck (s : State) (b : List Byte) : Nat :=
  let kind := u8 b 4
  let n := u32 b 0x0C
  let zero := fun (o n : Nat) => (slice b o n).all (· == 0#8)
  let key := slice b 0x40 64
  if slice b 0 4 != ascii "OZFW" || !(kind == 1 || kind == 2) || u16 b 6 != 0x0100 || !zero 5 1 || !zero 0xC0 64 || !zero 0x14 1 then 5
  else if u32 b 0x14 / 256 != 0x4A09B0 || n % 64 != 0 || n > (if kind = 1 then 261888 else 33554176) || b.length < 256 + n ||
    u32 b 0x10 % 8 != 0 || u32 b 0x10 ≥ n then 8
  else if Config.sha256 key != Config.vendorKeyHash then 6
  else if !Config.ecdsaVerify key (Config.sha256 (b.take 0x80)) (slice b 0x80 64) then 6
  else if u32 b 8 < (s.flash.counters.getD (kind - 1) (0, 0)).1 then 7
  else if Config.sha256 (slice b 256 n) != slice b 0x20 32 then 5
  else 0

/-- The image as flash holds it: its SVN and measurement. -/
def fwImage (b : List Byte) : FwImg :=
  { ok := true, svn := u32 b 8, meas := Config.sha256 (b.take (256 + u32 b 0x0C)), img := some (b.take (256 + u32 b 0x0C)) }

/-- The Pit Log's FIRMWARE record (R485): what happened, then SVNs and measurements. -/
def State.fwLog (s : State) (what arg : Nat) : State :=
  s.pit 7 2 (leBytes 1 what ++ leBytes 3 0 ++ leBytes 4 arg ++ leBytes 4 s.dpt.svn ++ leBytes 4 s.dpt.crewSvn ++
    padTo 32 s.dpt.meas ++ padTo 32 s.dpt.crewMeas)

/-- A counter is raised to a value (R425): none when it has no raise left. -/
def State.raiseCounter (s : State) (k v : Nat) : Option State :=
  let c := s.flash.counters.getD k (0, 0)
  if v ≤ c.1 then some s
  else if c.2 = 0 then none
  else some { s with flash := { s.flash with counters := s.flash.counters.set k (v, c.2 - 1) } }

/-! The boot chain's choice of a Deputy image (R421). -/

/-- The slot s of the strap (R469). -/
def bootSlot (band : Nat) : Nat := b2n (decide (8 ≤ band ∧ band ≤ 13))

/-- The image that runs, with its slot and whether it was the second choice; `first` and `second` say whether the images read well. -/
def State.pickDeputy (s : State) (first second : Bool) : Option (Nat × Bool × FwImg) :=
  let i := bootSlot (s.rst.raw / 16)
  let img := fun (k : Nat) => if k = 0 then s.flash.dep0 else s.flash.dep1
  let good := fun (k : Nat) (read : Bool) => read && (img k).ok && decide ((s.flash.counters.getD 0 (0, 0)).1 ≤ (img k).svn)
  if good i first then some (i, false, img i)
  else if good (1 - i) second then some (1 - i, true, img (1 - i))
  else none

/-- The Deputy starts from an image (R421, R423); a fallback is logged. -/
def State.startDeputy (s : State) (x : Nat × Bool × FwImg) : State :=
  let s := { s with dpt := { s.dpt with
    up := true, rom := false, slot := x.1, fallback := x.2.1, svn := x.2.2.svn, meas := x.2.2.meas } }
  if x.2.1 then s.fwLog 3 x.1 else s

/-- A reset of D0 alone, after an update in ROM recovery (R421): a start that the ROM ended goes on from the ROM; in a running device
an unlock ends (R431), and the Deputy starts, when an image passes. The ROM records it (R485). -/
def State.resetD0 (s : State) : State :=
  let s := s.pitWrite (s.pitRec 0x0B 1 (leBytes 1 4 ++ leBytes 1 0))
  if s.rst.refuge = 4 then { s with dpt := { nonces := s.dpt.nonces }, rst := { s.rst with stage := 0, refuge := 0 } }
  else
    let s := s.lockJtag 0 false
    match s.pickDeputy true true with
    | some x => s.startDeputy x
    | none => s

/-! The mailbox's operations (R425 to R428). -/

/-- What an operation comes to: its code, its RESULT and the state. -/
abbrev MailOut := Nat × Nat × State

/-- FW_UPDATE (R428). -/
def mailUpdate (slot : Nat) (blk : Option (List Byte)) (flashOk : Bool) (s : State) : MailOut :=
  match blk with
  | none => (4, 0, s)
  | some b =>
    let code := s.fwCheck b
    let dep := u8 b 4 == 1
    if s.dpt.rom && !dep then (2, 0, s)
    else if code != 0 then (code, 0, s)
    else
      let img := if flashOk then fwImage b else { fwImage b with ok := false }
      let put := fun (f : Flash) => if dep then (if slot = 0 then { f with dep0 := img } else { f with dep1 := img }) else { f with crew := img }
      let s := { s with flash := put s.flash }
      if flashOk then (0, 0, s.fwLog 1 (u32 b 8)) else (0x0F, 0, s)

/-- SVN_COMMIT (R425, R428): RESULT is counter 0's value. -/
def mailCommit (flashOk : Bool) (s : State) : MailOut :=
  if !flashOk then (0x0F, 0, s)
  else
    let (a, s) := match s.raiseCounter 0 s.dpt.svn with | some t => (true, t) | none => (false, s)
    let (b, s) := match s.raiseCounter 1 s.dpt.crewSvn with | some t => (true, t) | none => (false, s)
    let v := (s.flash.counters.getD 0 (0, 0)).1
    (if a && b then 0 else 9, v, s.fwLog 2 v)

/-- The applied or the stored Survey sets SIGN_REQUIRED (R426). -/
def State.signNeeded (s : State) : Bool := s.sv.signReq || imgSigns s.flash.stored

/-- OWNER_KEY (R426). -/
def mailKey (blk : Option (List Byte)) (flashOk : Bool) (s : State) : MailOut :=
  match blk with
  | none => (4, s.flash.keys.length, s)
  | some b =>
    let n := s.flash.keys.length
    let id := u32 b 0
    let op := u8 b 4
    let pub := slice b 24 64
    let auth := u32 b 12
    let zero := fun (o n : Nat) => (slice b o n).all (· == 0#8)
    let key := if n = 0 then (if auth = 0 && op = 1 then some pub else none) else (s.flash.keys.find? fun k => k.1 == auth).map (·.2)
    let signed := match key with | some k => Config.ecdsaVerify k (Config.sha256 (b.take 88)) (slice b 88 64) | none => false
    let has := s.flash.keys.any fun k => k.1 == id
    let epoch := (s.flash.counters.getD 2 (0, 0)).1
    let last := s.signNeeded && (n == 1 || (s.sv.signReq && s.sv.ownerKey == id))
    let out := fun (c : Nat) => (c, n, s)
    if b.length != 160 || !(op == 1 || op == 2) || !zero 5 3 || !zero 152 8 || id = 0 || (op == 2 && !zero 24 64) then out 5
    else if u64 b 16 != 0 && u64 b 16 != Config.devSerial.toNat then out 8
    else if u32 b 8 != epoch + 1 then out 0x0C
    else if !signed then out 6
    else if op = 1 && n ≥ 4 then out 0x0D
    else if (op = 1 && has) || (op = 2 && !has) then out 5
    else if op = 2 && last then out 0x0E
    else
      match s.raiseCounter 2 (epoch + 1) with
      | none => out 9
      | some t =>
        if !flashOk then out 0x0F
        else
          let keys := if op = 1 then t.flash.keys ++ [(id, pub)] else t.flash.keys.filter fun k => k.1 != id
          (0, keys.length, ({ t with flash := { t.flash with keys := keys } }).fwLog 4 id)

/-- RETIRE_PAGE (R218). -/
def mailRetire (q arg : Nat) (flashOk : Bool) (s : State) : MailOut :=
  let page := arg / 65536 * 65536
  let mine := match s.holder (paChan arg) (paPage arg) with
    | some p => (s.bound q).contains p
    | none => false
  if arg ≥ 2 ^ 40 || paPage arg ≥ s.pagesOn (paChan arg) || !(mine || s.isPrimaryPf q) then (0x0B, 0, s)
  else if s.flash.retired.contains page then (0, 0, s)
  else if s.flash.retired.length ≥ 65536 then (0x0A, 0, s)
  else if !flashOk then (0x0F, 0, s)
  else (0, 0, { s with flash := { s.flash with retired := s.flash.retired ++ [page] } })

/-- CLAIM_PRIMARY (R402): the primary port has been LOST or IN_RESET for 1 s without a break. -/
def mailClaim (q : Nat) (s : State) : MailOut :=
  let x := s.port s.primary
  if x.dom == .ready || s.clk < x.badAt + 1000000000 || q / 16 == s.primary then (0x0C, 0, s)
  else
    let s := (s.updPort (1 - q / 16) fun y => { y with claimed := false }).updPort (q / 16) fun y => { y with claimed := true }
    (0, 0, s.pit 9 2 (leBytes 1 (q / 16) ++ leBytes 1 0x80))

/-- MAILBOX_OPERATION_END (R427): the running operation ends, given the block it fetched and whether flash took its writes; then the
next pending mailbox is taken. -/
def execMailboxOperationEnd (blk : Option (List Byte)) (flashOk : Bool) (s : State) : Host.Outcome State Fault Refusal :=
  match s.dpt.running with
  | none => .next s
  | some q =>
    if !s.dpt.up then .next s
    else
      let m := (s.fn q).mail
      let (code, result, s) := match m.op with
        | 1 => mailUpdate m.slot blk flashOk s
        | 2 => mailCommit flashOk s
        | 3 => mailKey blk flashOk s
        | 4 => mailRetire q m.arg flashOk s
        | 5 => mailClaim q s
        | _ => (0, 0, s.lockJtag 0 false)
      let s := { s with dpt := { s.dpt with running := none } }.mailEnd q code result
      .next (if s.dpt.rom && m.op = 1 && code = 0 then s.resetD0 else s.mailNext)

/-! DOE and SPDM (R429, R430). The layouts of the messages are those of the DMTF's specifications (log entry 40). -/

/-- A request on the DOE mailbox of a port's physical function; while the Deputy is down the mailbox is Busy (R433). -/
def State.doe (s : State) (port : Nat) (f : FnCfg → List Byte × FnCfg × State) : State :=
  let q := 16 * port
  if port ≥ 2 || !s.fnOn q || (s.port port).dom != .ready || !s.dpt.up then s
  else
    let (d, c, s) := f (s.fn q).cfg
    s.updFn q fun x => { x with cfg := { c with doe := d } }

def spdmError (code data : Nat) : List Byte := leBytes 1 0x12 ++ leBytes 1 0x7F ++ leBytes 1 code ++ leBytes 1 data

/-- A request that needs a negotiated state. -/
def State.spdm (s : State) (port : Nat) (ready : FnCfg → Bool) (f : FnCfg → List Byte × FnCfg × State) : State :=
  s.doe port fun c => if ready c then f c else (spdmError 0x04 0, c, s)

/-- DOE_DISCOVERY: the discovery object, then SPDM. -/
def execDoeDiscovery (port idx : Nat) (s : State) : Host.Outcome State Fault Refusal :=
  let d := match idx with
    | 0 => leBytes 2 1 ++ leBytes 1 0 ++ leBytes 1 1
    | 1 => leBytes 2 1 ++ leBytes 1 1 ++ leBytes 1 0
    | _ => leBytes 2 0xFFFF ++ leBytes 1 0xFF ++ leBytes 1 0
  .next (s.doe port fun c => (d, c, s))

/-- GET_VERSION: version 1.2 only; the negotiation starts anew. -/
def execGetVersion (port : Nat) (s : State) : Host.Outcome State Fault Refusal :=
  .next (s.doe port fun c => (leBytes 4 0x00000410 ++ leBytes 1 0 ++ leBytes 1 1 ++ leBytes 2 0x1200,
    { c with spdmVer := true, spdmCaps := false, spdmAlgs := false }, s))

/-- GET_CAPABILITIES: CERT_CAP, CHAL_CAP, MEAS_CAP with signature; CTExponent 17; 4,096-byte messages. -/
def execGetCapabilities (port : Nat) (s : State) : Host.Outcome State Fault Refusal :=
  .next (s.spdm port (·.spdmVer) fun c => (leBytes 4 0x00006112 ++ leBytes 1 0 ++ leBytes 1 17 ++ leBytes 2 0 ++ leBytes 4 0x16 ++
    leBytes 4 4096 ++ leBytes 4 4096, { c with spdmCaps := true }, s))

/-- NEGOTIATE_ALGORITHMS: ECDSA P-256 and SHA-256; a requester that offers neither is refused. -/
def execNegotiateAlgorithms (port : Nat) (p256 sha : Bool) (s : State) : Host.Outcome State Fault Refusal :=
  .next (s.spdm port (fun c => c.spdmVer && c.spdmCaps) fun c =>
    if !p256 && !sha then (spdmError 0x01 0, c, s)
    else (leBytes 4 0x00006312 ++ leBytes 2 36 ++ leBytes 1 1 ++ leBytes 1 0 ++ leBytes 4 2 ++ leBytes 4 (16 * b2n p256) ++
      leBytes 4 (b2n sha) ++ padTo 16 [], { c with spdmAlgs := p256 && sha }, s))

/-- The slot 0 chain: vendor root, vendor device-identity authority, device certificate, alias certificate. -/
def State.chain (s : State) : List Byte :=
  let certs := Config.vendorChain ++ s.aliasDer
  leBytes 2 (36 + certs.length) ++ leBytes 2 0 ++ padTo 32 (Config.sha256 Config.vendorChain) ++ certs

def negotiated (c : FnCfg) : Bool := c.spdmVer && c.spdmCaps && c.spdmAlgs

/-- GET_DIGESTS: slot 0 only. -/
def execGetDigests (port : Nat) (s : State) : Host.Outcome State Fault Refusal :=
  .next (s.spdm port negotiated fun c => (leBytes 4 0x01000112 ++ padTo 32 (Config.sha256 s.chain), c, s))

/-- GET_CERTIFICATE: a portion of the slot 0 chain. -/
def execGetCertificate (port slot off len : Nat) (s : State) : Host.Outcome State Fault Refusal :=
  .next (s.spdm port negotiated fun c =>
    if slot != 0 || off ≥ s.chain.length then (spdmError 0x01 0, c, s)
    else
      let n := min (min len 4088) (s.chain.length - off)
      (leBytes 4 0x00000212 ++ leBytes 2 n ++ leBytes 2 (s.chain.length - off - n) ++ slice s.chain off n, c, s))

/-- Measurement i (R430): its type and value. -/
def State.measurement (s : State) (i : Nat) : Nat × List Byte :=
  match i with
  | 1 => (0x00, padTo 32 Config.romHash)
  | 2 => (0x01, padTo 32 s.dpt.meas)
  | 3 => (0x01, padTo 32 s.dpt.crewMeas)
  | 4 => (0x03, padTo 32 (match s.srv.applied with | some v => v.hash | none => []))
  | _ => (0x85, leBytes 4 (pack [(0, s.dpt.unlock), (16, b2n s.dpt.unlockCrew), (17, b2n s.dpt.dbgHalted)]))

/-- A measurement block in the DMTF format. -/
def State.measBlock (s : State) (i : Nat) : List Byte :=
  let (t, v) := s.measurement i
  leBytes 1 i ++ leBytes 1 1 ++ leBytes 2 (3 + v.length) ++ leBytes 1 t ++ leBytes 2 v.length ++ v

def State.measAll (s : State) : List Byte := [1, 2, 3, 4, 5].flatMap s.measBlock

/-- A response signed by the alias key (R424), over it and the requester's nonce; the responder's nonce is drawn. -/
def State.signedResponse (s : State) (head tail nonce : List Byte) : List Byte × State :=
  let d := head ++ padTo 32 (Config.nonce s.dpt.nonces) ++ tail ++ leBytes 2 0
  (d ++ padTo 64 (Config.ecdsaSign s.aliasKey (Config.sha256 (padTo 32 nonce ++ d))),
   { s with dpt := { s.dpt with nonces := s.dpt.nonces + 1 } })

/-- CHALLENGE: with the summary hash of measurements 1 to 5. -/
def execChallenge (port slot : Nat) (nonce : List Byte) (s : State) : Host.Outcome State Fault Refusal :=
  .next (s.spdm port negotiated fun c =>
    if slot != 0 then (spdmError 0x01 0, c, s)
    else
      let (d, t) := s.signedResponse (leBytes 4 0x01000312 ++ padTo 32 (Config.sha256 s.chain)) (padTo 32 (Config.sha256 s.measAll)) nonce
      (d, c, t))

/-- GET_MEASUREMENTS: index 0 asks for the number, 255 for all, 1 to 5 for one; signed when requested. -/
def execGetMeasurements (port idx : Nat) (sign : Bool) (nonce : List Byte) (s : State) : Host.Outcome State Fault Refusal :=
  .next (s.spdm port negotiated fun c =>
    let known := idx == 0 || idx == 0xFF || decide (idx ≤ 5)
    if !known then (spdmError 0x01 0, c, s)
    else
      let rec_ := if idx = 0 then [] else if idx = 0xFF then s.measAll else s.measBlock idx
      let n := if idx = 0 then 0 else if idx = 0xFF then 5 else 1
      let head := leBytes 2 0x6012 ++ leBytes 1 (if idx = 0 then 5 else 0) ++ leBytes 1 0 ++ leBytes 1 n ++ leBytes 3 rec_.length ++ rec_
      if sign then
        let (d, t) := s.signedResponse head [] nonce
        (d, c, t)
      else (head ++ padTo 32 (Config.nonce s.dpt.nonces) ++ leBytes 2 0, c, { s with dpt := { s.dpt with nonces := s.dpt.nonces + 1 } }))

/-! Debug unlock (R431). -/

/-- UNLOCK_CHALLENGE: DEV_SERIAL, counter 3 and a new nonce. -/
def execUnlockChallenge (s : State) : Host.Outcome State Fault Refusal :=
  if !s.dpt.up then .next s
  else .next { s with dpt := { s.dpt with
    challenge := some (leBytes 8 Config.devSerial.toNat ++ leBytes 4 (s.flash.counters.getD 3 (0, 0)).1 ++ padTo 16 (Config.nonce s.dpt.nonces))
    nonces := s.dpt.nonces + 1 } }

/-- UNLOCK: the block's signature, and the Survey's permission for its partitions. -/
def execUnlock (b : UnlockBlk) (s : State) : Host.Outcome State Fault Refusal :=
  let mask := b.mask % 65536
  let h := Config.sha256 (b.challenge ++ leBytes 2 mask ++ leBytes 1 (b2n b.crew))
  let allowed := (setBits 16 mask).all fun p => s.sv.valid p && s.sv.jtagDebug p
  let good := match b.key with
    | some id => !b.crew && allowed && (match s.flash.keys.find? fun k => k.1 == id with
        | some k => Config.ecdsaVerify k.2 h b.sig | none => false)
    | none => Config.sha256 b.vendorPub == Config.vendorKeyHash && Config.ecdsaVerify b.vendorPub h b.sig && (b.crew || allowed)
  if !s.dpt.up || s.dpt.challenge != some b.challenge || !good then .next s
  else
    match s.raiseCounter 3 ((s.flash.counters.getD 3 (0, 0)).1 + 1) with
    | none => .next s
    | some s =>
      let s := { s with dpt := { s.dpt with challenge := none, unlock := s.dpt.unlock ||| mask, unlockCrew := s.dpt.unlockCrew || b.crew } }
      .next (s.pit 8 2 (leBytes 1 1 ++ leBytes 1 (b2n b.crew) ++ leBytes 2 mask ++ leBytes 4 (s.flash.counters.getD 3 (0, 0)).1))

/-! The Crew (R416, R417, R422, R432). -/

/-- A Crew failure: cause 1 heartbeat, 2 violation, 3 agent failure. -/
def State.crewFail (s : State) (core cause : Nat) : State :=
  if !s.dpt.crewUp then s
  else
    let recent := (s.dpt.crewFails.filter fun t => decide (s.clk < t + 60000000000)) ++ [s.clk]
    let s := { s with dpt := { s.dpt with crewUp := false, crewFails := recent } }
    let s := s.reportDev 0x0014 8 (81 + core % 8) 0 (leBytes 1 cause ++ leBytes 1 (min 255 recent.length)) true
    if recent.length ≥ 4 then ({ s with dpt := { s.dpt with crewStopped := true } }).reportDev 0x0015 0 0 0 [] true else s

/-- CREW_HEARTBEAT_MISS. -/
def execCrewHeartbeatMiss (core : Nat) (s : State) : Host.Outcome State Fault Refusal := .next (s.crewFail core 1)

/-- The Crew runs the image in flash (R422). -/
def State.startCrew (s : State) : State :=
  { s with dpt := { s.dpt with
    crewUp := true, violated := false, crewSvn := s.flash.crew.svn, crewMeas := s.flash.crew.meas, crewImg := s.flash.crew.img
    crewMem := [] } }

/-- The Crew image passes its check (R420, R422). -/
def State.crewGood (s : State) : Bool := s.flash.crew.ok && decide ((s.flash.counters.getD 1 (0, 0)).1 ≤ s.flash.crew.svn)

/-- CREW_RELOAD_END: the Crew resumes, and records that waited go out. -/
def execCrewReloadEnd (s : State) : Host.Outcome State Fault Refusal :=
  if s.dpt.crewUp || s.dpt.crewStopped || !s.dpt.up || s.rst.stage < 5 || s.rst.refuge != 0 || !s.crewGood then .next s
  else
    let s := s.startCrew
    .next (s.parts.keys.foldl (fun s p => s.flushRing (some p)) (s.flushRing none))

/-- What the filter of R416 lets the Crew do. -/
def crewMay (r : CrewRes) (wr : Bool) : Bool :=
  match r with
  | .crewWork => true
  | .front => true
  | .reserved => true
  | .crewImage => !wr
  | .srv => !wr
  | .ckwCounters => !wr
  | .readOnly => !wr
  | .fltRecords => wr
  | .pitLog => wr
  | _ => false

/-- A device physical address lies in a reserved page (R202). -/
def State.reservedPage (s : State) (a : Nat) : Bool :=
  decide (a < 2 ^ 40) && decide (paPage a < (s.chan (paChan a)).pages) && decide ((s.chan (paChan a)).pages ≤ paPage a + 512)

/-- Where the image part of the 48 MiB of Crew memory ends and the working part begins (R9, R415): the image, header and body, lies at
offset 0 (DESIGN CHOICE, log entry 92); the shipped one has the greatest length. -/
def Dpt.crewWorkAt (d : Dpt) : Nat := match d.crewImg with | some b => b.length | none => 2 ^ 25

/-- An 8-byte access at an offset lies in the resource that it names: the part of Crew memory, or the register blocks of BAR0 (R17):
SRV; CMD, XLT, PLC, TIM, FAB and RED; DEV, MEM and FLT. -/
def Dpt.crewIn (d : Dpt) (r : CrewRes) (a : Nat) : Bool :=
  match r with
  | .crewImage => decide (a + 8 ≤ d.crewWorkAt)
  | .crewWork => decide (d.crewWorkAt ≤ a ∧ a + 8 ≤ 48 * 2 ^ 20)
  | .srv => a / 2 ^ 20 == 1
  | .front => [2, 3, 5, 6, 7, 8].contains (a / 2 ^ 20)
  | .readOnly => [0, 4, 13].contains (a / 2 ^ 20)
  | _ => true

/-- 8 bytes of the image part. -/
def Dpt.imageWord (d : Dpt) (a : Nat) : Nat :=
  match d.crewImg with
  | some b => u64 b a
  | none => leVal ((List.range 8).map fun i => Config.shippedCrew (a + i))

/-- An allowed Crew access of 8 bytes: what a read returns, and the state. -/
def State.crewDo (s : State) (r : CrewRes) (wr : Bool) (a v : Nat) : Nat × State :=
  let reg := if wr then (0, s.busWrite (s.who 33) a 8 v) else let (x, s) := s.busRead (s.who 33) a 8; (x, s)
  match r with
  | .crewWork =>
    if wr then (0, { s with dpt := { s.dpt with crewMem := s.dpt.crewMem.write a (leBytes 8 v) } }) else (leVal (s.dpt.crewMem.read a 8), s)
  | .reserved =>
    let b := a / 8 * 8
    if wr then (0, (s.recall (paLine b) true).devWrite b (leBytes 8 v)) else (leVal (s.devRead b 8), s.recall (paLine b) false)
  | .crewImage => (s.dpt.imageWord a, s)
  | .ckwCounters => (Tab.get 0 s.ckw.act a, s)
  | .front => reg
  | .srv => reg
  | .readOnly => reg
  | .pitLog => (0, if 1 ≤ v ∧ v ≤ 12 then s.pit v 3 (leBytes 8 a) else s)
  | _ => (0, s)

/-- An access that the filter refuses (R417): the first one is recorded and is a Crew failure. -/
def State.crewRefused (s : State) (core addr : Nat) : State :=
  if s.dpt.violated then s
  else (({ s with dpt := { s.dpt with violated := true } }).reportDev 0x0013 8 (81 + core % 8) addr [] true).crewFail core 2

/-- CREW_ACCESS (R417): a refused read returns zero, a refused write changes nothing, and the first refusal is a Crew failure. -/
def execCrewAccess (core : Nat) (r : CrewRes) (wr : Bool) (addr v : Nat) (s : State) : Host.Outcome State Fault Refusal :=
  if !s.dpt.crewUp then .next s
  else if crewMay r wr && (r != .reserved || s.reservedPage addr) && s.dpt.crewIn r addr then
    let (x, s) := s.crewDo r wr addr v
    .next (if wr then s else { s with dpt := { s.dpt with crewRead := x } })
  else
    let s : State := if wr then s else { s with dpt := { s.dpt with crewRead := 0 } }
    .next (s.crewRefused core addr)

/-! The Deputy's own resets (R433). -/

/-- The Deputy core resets itself: operations end with ABORTED, the challenge is void. -/
def State.deputyDown (s : State) (cause : Nat) : State :=
  if !s.dpt.up then s
  else
    let s := { s with
      rst := { s.rst with dptSelf := satAdd 0xFF s.rst.dptSelf 1 }
      dpt := { s.dpt with up := false, why := some cause, challenge := none } }
    let s := match s.dpt.running with
      | some q => let s := s.cutUpdate; { s with dpt := { s.dpt with running := none } }.mailEnd q 0x10
      | none => s
    match s.srv.state with
    | .fetching | .validating | .draining | .waiting => s.srvEnd 0x17 0
    | .storing => if s.srv.op = 3 then s.srvEnd 0x17 0 else s
    | _ => s

/-- DEPUTY_SELF_RESET. -/
def execDeputySelfReset (cause : Nat) (s : State) : Host.Outcome State Fault Refusal := .next (s.deputyDown cause)

/-- Refuge is entered (R471): the watchdog is disarmed, and a record written. -/
def State.enterRefuge (s : State) (why source : Nat) : State :=
  let s := { s with rst := { s.rst with refuge := why, armed := false } }
  let r := s.pitRec 4 source (leBytes 1 why ++ leBytes 1 s.rst.attempts)
  if source = 1 then s.pitWrite r else s.pitQueue r

/-- DEPUTY_RESTART_END: the boot ROM has checked the images again; the cause goes to the Pit Log. With no image that passes it enters
ROM recovery, which before D2 is released is Refuge (R421, R471, R475). -/
def execDeputyRestartEnd (s : State) : Host.Outcome State Fault Refusal :=
  match s.dpt.why with
  | none => .next s
  | some cause =>
    let s := { s with dpt := { s.dpt with why := none } }
    let s := match s.pickDeputy true true with
      | some x => s.startDeputy x
      | none =>
        let s := { s with dpt := { s.dpt with up := true, rom := true } }
        if s.rst.stage < 4 && s.rst.refuge = 0 then s.enterRefuge 4 1 else s
    .next (s.pit 0x0B 2 (leBytes 1 1 ++ leBytes 1 cause)).mailNext

/-! Coherent agents (R259 to R261). -/

/-- AGENT_REQUEST (R260): a read, a read for ownership (with the bytes that the agent then holds), a writeback, or an eviction. -/
def execAgentRequest (a line : Nat) (r : AgentReq) (s : State) : Host.Outcome State Fault Refusal :=
  let e := s.dirEntry line
  let write := fun (s : State) (d : List Byte) => if d.isEmpty then s else (s.l2Write 15 (line * 128) (d.take 128).length).devWrite (line * 128) (d.take 128)
  let access := match r with | .read => true | .own _ => true | _ => false
  if a > 88 || line ≥ 2 ^ 33 || !s.rel 4 || (a ≥ 81 && access && !s.dpt.crewUp) then .next s
  else if a ≥ 81 && access && !s.reservedPage (line * 128) then .next (s.crewRefused (a - 81) (line * 128))
  else
    match r with
    | .read => .next (if e.owner = some a then s else s.agentRead a line)
    | .own d =>
      let s := if e.owner = some a then s else ((s.agentTouch a line).agentKeep a line).setDir line { sharers := [], owner := some a }
      .next (write s d).semCheck
    | .writeback d =>
      if e.owner != some a then .next s
      else .next ((write s d).setDir line { sharers := [a], owner := none }).semCheck
    | .evict => .next (s.setDir line (e.without a))

/-- AGENT_TIMEOUT (R261): agent a has not answered a recall or an invalidation of a line that it holds. -/
def execAgentTimeout (a line : Nat) (s : State) : Host.Outcome State Fault Refusal :=
  let e := s.dirEntry line
  if !(e.owner == some a || e.sharers.contains a) then .next s
  else
    let held := (s.mem.dir.filter fun x => x.2.owner == some a).map (·.1)
    let s := (line :: held).foldl (fun s l => if s.deadAt (l * 128) then s else s.setPoison (l * 128) true) s
    let out := fun (l : Nat) (x : DirEntry) =>
      if l = line || x.owner = some a then ({} : DirEntry) else { x with sharers := x.sharers.erase a }
    let s := s.updMem fun m => { m with dir := Tab.adjust {} out m.dir }
    let s := s.reportDev 0x0010 8 a (line * 128) [] true
    if a < 16 then .next ((List.range 8).foldl (fun s n => s.guilty a n 2) s)
    else if a < 80 then .next (s.engineAbort (a - 16))
    else if a = 80 then .next (s.deputyDown 3)
    else .next (s.crewFail (a - 81) 3)

end Sys2Proof.Machine
end

