-- ==== Sys2Proof/Machine/Boot.lean ====
section
/-!
DEFINITION. Power-on, reset and Refuge (R456 to R475): the pins, the release sequence, the watchdog, power-down, tier resets.
-/

namespace Sys2Proof.Machine

/-! Pins (R457, R504 to R506). -/

/-- t0 (R457, R459): D0 is released. -/
def State.releaseD0 (s : State) : State :=
  { s with rst := { s.rst with released := 1, t0 := s.clk, relAt := s.clk } }

/-- PWR_GOOD_RISE: with a rail below 90% the device stays in reset (R505). -/
def execPwrGoodRise (railsOk : Bool) (s : State) : Host.Outcome State Fault Refusal :=
  if s.rst.pwrGood || !railsOk then .next s
  else
    let s := { s with rst := { s.rst with pwrGood := true } }
    .next (if s.rst.sysRstN then s.releaseD0 else s)

/-- PWR_GOOD is low, or counts as low (R456, R505). -/
def State.powerLost (s : State) : State :=
  if s.rst.pwrGood then ({ s with rst := { s.rst with pwrGood := false } }).fullReset 1 else s

/-- PWR_GOOD_FALL (R456, R506). -/
def execPwrGoodFall (s : State) : Host.Outcome State Fault Refusal := .next s.powerLost

/-- RAIL_UNDERVOLTAGE (R505): as at PWR_GOOD low. -/
def execRailUndervoltage (s : State) : Host.Outcome State Fault Refusal := .next s.powerLost

/-- SYS_RST_N_LOW (R457): the pin goes low for `ns`; below 100 ns nothing happens, below 1 µs a free value decides. -/
def execSysRstNLow (ns : Nat) (s : State) : Host.Outcome State Fault Refusal :=
  if ns < 100 || !s.rst.sysRstN then .next s
  else
    let (v, s) := if ns < 1000 then s.draw else (1#64, s)
    if v.toNat % 2 = 0 then .next s
    else
      let s := { s with rst := { s.rst with sysRstN := false } }
      .next (if s.rst.pwrGood then s.fullReset 2 else s)

/-- SYS_RST_N_HIGH (R457). -/
def execSysRstNHigh (s : State) : Host.Outcome State Fault Refusal :=
  if s.rst.sysRstN then .next s
  else
    let s := { s with rst := { s.rst with sysRstN := true } }
    .next (if s.rst.pwrGood then s.releaseD0 else s)

/-! The release sequence (R459 to R461). -/

/-- The sequencer reaches a stage (R470, R474): the boot-attempt record follows it, unless Refuge left the record alone (R471). -/
def State.reach (s : State) (n : Nat) : State :=
  { s with
    rst := { s.rst with stage := n }
    flash := if s.rst.refuge = 1 || s.rst.refuge = 2 then s.flash else { s.flash with lastStage := n } }

/-- A domain is released. -/
def State.release (s : State) (d : Nat) : State :=
  { s with rst := { s.rst with released := if s.rel d then s.rst.released else s.rst.released + 2 ^ d, relAt := s.clk } }

/-- The port that the strap makes primary (R469). -/
def State.strapPort (s : State) : Nat :=
  let b := s.rst.raw / 16
  b2n ((decide (4 ≤ b) && decide (b ≤ 7)) || (decide (11 ≤ b) && decide (b ≤ 13)))

/-- The boot ROM's RESET record (R461, R485): the cause, RST_BOOT, the last stage, and the stage in the cause store when the
sequencer caused this reset. -/
def State.resetRecord (s : State) : PitRec :=
  let st := match s.rst.causeStore with
    | some (c, n) => if c = s.rst.cause then n else 0
    | none => 0
  s.pitRec 1 1 (leBytes 4 s.rstCause ++ leBytes 4 (pack [(4, s.rst.prevStage), (8, s.rst.attempts)]) ++ leBytes 1 s.rst.prevStage ++
    leBytes 1 st)

/-- The boot ROM begins (R459, R468, R470, R471): the strap is latched, D1 is released, and the boot-attempt record is read and
updated. After a reset of D0 alone all this stands (R421). -/
def State.bootRom (s : State) (b : BootIn) : State :=
  if s.rel 1 then s.reach 1
  else
    let s := { s with
      rst := { s.rst with raw := b.code % 256, strapped := true, attempts := s.flash.attempts, prevStage := s.flash.lastStage }
      flash := { s.flash with boot := wrapAdd two32 s.flash.boot 1 }
      ckw := { s.ckw with winAt := s.clk, cutAt := s.clk, estimating := !b.calOk } }
    let s := s.release 1
    let s := s.pitWrite s.resetRecord
    let s :=
      if s.rst.raw / 16 = 14 then s.enterRefuge 2 1
      else if s.rst.attempts ≥ 3 then s.enterRefuge 1 1
      else { s with flash := { s.flash with attempts := s.flash.attempts + 1 } }
    s.reach 1

/-- The Deputy starts, or ROM recovery does (R421, R471). -/
def State.bootDeputy (s : State) (b : BootIn) : State :=
  let s := match s.pickDeputy b.depOk b.otherOk with
    | some x => s.startDeputy x
    | none =>
      let s := { s with dpt := { s.dpt with up := true, rom := true } }
      if s.rst.refuge = 0 then s.enterRefuge 4 1 else s
  s.reach 2

/-- The stored Survey, or the one before it, is validated (R43, R48); sideband outputs are enabled (R467). -/
def State.bootSurvey (s : State) : State :=
  let s := { s with rst := { s.rst with sbOut := true } }
  let try_ := fun (img : Option (List Byte)) (base : Option (Nat × List Byte)) (s : State) (els : State → State) =>
    match img with
    | none => els s
    | some b =>
      match s.validate b b.length 0 base with
      | .ok v => { s with srv := { s.srv with cand := some (v, b) } }
      | .error (code, detail) =>
        let s := s.reportDev 0x0018 0 0 0 (leBytes 1 code ++ leBytes 7 0 ++ leBytes 8 detail ++ leBytes 8 (u64 b 0x18)) true
        els (s.srvLog 0 code (u64 b 0x18) 0 { Survey.none with hash := slice b 0x20 32 })
  let s := if s.rst.refuge != 0 then s
    else try_ s.flash.stored (s.flash.prev.map fun b => (u64 b 0x18, slice b 0x20 32)) s fun s => try_ s.flash.prev none s id
  s.reach 3

/-- The host ports come up (R48, R401, R402, R460, R472) under an image, under none, or in Refuge; records of the device fault ring
written before that raise their vector once the port is ready (R476, R477). -/
def State.bootPorts (s : State) (img : Option Survey) : State :=
  let ref := s.rst.refuge != 0
  let strap := s.strapPort
  let prim := match img with | some v => if v.primary = 0 then strap else v.primary - 1 | none => strap
  let s := { s with rst := { s.rst with prim := prim } }
  let s := [0, 1].foldl (init := s) fun s i =>
    let on := if ref then i == strap else match img with | some v => v.portOn i | none => true
    let n := match img with | some v => v.vfCount i | none => 0
    let b := match img with | some v => v.bar2Log i | none => 36
    let s := s.updPort i fun x => { perst := x.perst, present := on, badAt := s.clk, vfs := if on then n else 0, bar2 := if on then b else 36 }
    (List.range 16).foldl (fun s f => s.resetFn (16 * i + f)) s
  let s : State := (List.range 32).foldl (fun (s : State) q =>
    { s with binds := Tab.set 0 s.binds q (match img with | some v => v.bind q | none => 0) }) s
  if s.flt.ring.tail = s.flt.ring.head then s else s.raisePrimary 6

/-- D2 (R48): the image is applied, its retired pages merged (R40), its cadence placed (R56). -/
def State.bootD2 (s : State) : State :=
  let img := s.srv.cand.map (·.1)
  let s := ({ s with srv := { s.srv with applied := img, cand := none } }).bootPorts img
  let s := match img with
    | none => s
    | some v =>
      let add := v.retired.eraseDups.filter fun a => !s.flash.retired.contains a
      ({ s with flash := { s.flash with retired := s.flash.retired ++ add } }).recadence v
  (s.release 2).reach 4

/-- The Crew is loaded and released (R422), or the device goes to Refuge (R471, R472): no Survey is applied, and only the strap's
port comes up. -/
def State.bootCrew (s : State) (b : BootIn) : State :=
  if s.crewGood && b.crewOk then s.startCrew.reach 5
  else
    let s := s.enterRefuge 3 2
    ({ s with srv := { s.srv with applied := none }, tim := { s.tim with cad := {} } }).bootPorts none

/-- D3 (R227, R448): each L2 slice's generator, and the partitions. -/
def State.bootD3 (s : State) : State :=
  let sl := (List.range 256).foldl (fun t i => Tab.upd {} t i fun x => { x with lfsr := 0xACE1 ^^^ i }) s.mem.slices
  let s := s.updMem fun m => { m with slices := sl }
  let s := s.sv.parts.foldl (fun s p => s.updPart p fun x => { x with
    en := { x.en with interval := { start := s.tim.now, cyc := s.clk, unsync := !s.sync, recal := s.ckw.winRecal } } }) s
  (s.release 3).reach 6

/-- D4 (R221): the regions of the image are EMPTY; the channels train. -/
def State.bootD4 (s : State) : State :=
  let s := s.sv.regions.foldl (fun s d => s.updRegion d.region fun _ => { state := .empty }) s
  (s.release 4).reach 7

/-- D5: the compute tiers leave reset. -/
def State.bootD5 (s : State) : State :=
  (({ s with rst := { s.rst with tierAt := [s.clk, s.clk, s.clk, s.clk] } }).release 5).reach 8

/-- D6: the fabric takes its ID, and its ports may leave DISABLED (R344, R371). -/
def State.bootD6 (s : State) : State := (((s.release 6).fabEnable 7).fabAdopt).reach 9

/-- The sequencer may take the next step (R459, R472): it runs, the gap after the last release has passed where a domain is released
next, and from the Deputy's start on the Deputy directs it. -/
def State.bootDue (s : State) : Bool :=
  s.rel 0 && s.rst.pwrGood && s.rst.sysRstN && !s.rst.safeOff && !s.rst.powering && (s.rst.refuge == 0 || decide (s.rst.stage < 4)) &&
  (!([0, 3, 5, 6, 7, 8].contains s.rst.stage) || decide (s.rst.relAt + 20480 ≤ s.clk)) && (decide (s.rst.stage < 2) || s.dpt.up)

/-- DOMAIN_RELEASE (R459): the next step of the table, which releases a domain or ends the action that a release waits for. -/
def execDomainRelease (b : BootIn) (s : State) : Host.Outcome State Fault Refusal :=
  if !s.bootDue then .next s
  else
    match s.rst.stage with
    | 0 => .next (s.bootRom b)
    | 1 => .next (s.bootDeputy b)
    | 2 => .next s.bootSurvey
    | 3 => .next s.bootD2
    | 4 => .next (s.bootCrew b)
    | 5 => .next s.bootD3
    | 6 => .next s.bootD4
    | 7 => .next (if s.mem.trained then s.bootD5 else s)
    | 8 => .next s.bootD6
    | _ => .next s

/-- SHIFT_READY (R461, R470): D6 is released, and the Deputy clears the count. -/
def execShiftReady (s : State) : Host.Outcome State Fault Refusal :=
  if s.rst.stage != 9 || !s.dpt.up then .next s
  else
    let s := { s with
      flash := { s.flash with attempts := 0 }
      rst := { s.rst with armed := false, shiftReady := true } }
    .next (s.reach 10)

/-- BOOT_WATCHDOG (R461): 3,000,000,000 reference cycles after t0. -/
def execBootWatchdog (s : State) : Host.Outcome State Fault Refusal :=
  if !s.rst.armed || !s.rel 0 || s.clk < s.rst.t0 + 30000000000 then .next s
  else .next (({ s with rst := { s.rst with causeStore := some (4, s.rst.stage) } }).fullReset 4)

/-! Resets of single units and full resets (R456, R458, R463, R464). -/

/-- SEQUENCER_SELF_RESET (R463): one copy is reloaded from the other; with both damaged, a full reset. -/
def execSequencerSelfReset (both : Bool) (s : State) : Host.Outcome State Fault Refusal :=
  if !s.rst.pwrGood then .next s
  else if both then .next (({ s with rst := { s.rst with causeStore := some (5, s.rst.stage) } }).fullReset 5)
  else .next (({ s with rst := { s.rst with seqSelf := satAdd 0xFF s.rst.seqSelf 1 } }).pit 0x0B 4 (leBytes 1 2))

/-- DIE_FATAL (R464): the compute die of tier t reports a fatal error. -/
def execDieFatal (t : Nat) (s : State) : Host.Outcome State Fault Refusal :=
  if t < 4 && s.rel 5 then .next (s.fullReset 6) else .next s

/-- SOFTWARE_RESET_DELAY (R458): 1 ms after the request. -/
def execSoftwareResetDelay (s : State) : Host.Outcome State Fault Refusal :=
  match s.rst.softPending with
  | none => .next s
  | some c => if s.clk < c + 1000000 then .next s else .next (s.fullReset 3)

/-- TIER_RESET_END (R464): the tier's cores are in their districts again. -/
def execTierResetEnd (t : Nat) (s : State) : Host.Outcome State Fault Refusal :=
  if t ≥ 4 || !bit s.rst.tiersHeld t then .next s
  else .next { s with rst := { s.rst with tiersHeld := s.rst.tiersHeld - 2 ^ t, tierAt := s.rst.tierAt.set t s.clk } }

/-! Orderly power-down (R455, R465). -/

/-- D2 to D6 are held in reset; D0 and D1 go on running (R465). -/
def State.holdDomains (s : State) : State :=
  { State.reset with
    clk := s.clk, free := s.free, uid := s.uid, pending := s.pending, flash := s.flash, dpt := s.dpt, tim := s.tim, ckw := s.ckw
    flt := s.flt, srv := s.srv, pwr := s.pwr, foreignWr := s.foreignWr
    fns := Tab.adjust {} (fun q f => if q < 32 then { f with partSel := none, cfg := {} } else f) s.fns
    ports := Tab.adjust {} (fun _ x => { perst := x.perst }) s.ports
    rst := { s.rst with released := 3, safeOff := true, powering := false, tiersHeld := 0 } }

/-- The last records (R447, R455): tallies close aborted, every partition's interval ends FINAL, and what the hold has is signed and
written. -/
def State.finalRecords (s : State) (m : Sample) : State :=
  let s := s.sv.parts.foldl (fun s p => s.abortTallies p fun _ => true) s
  let s := s.windowEnd m
  s.sv.parts.foldl (init := s) fun s p =>
    let s := s.endInterval p 3
    (s.updPart p fun y => { y with en := { y.en with hold := y.en.hold.map s.signRec } }).energyOut p

/-- POWER_DOWN_END (R465): everything has drained, or 200 ms have passed: stores still buffered and `undrained` writes elsewhere are
discarded and counted. A trip has left it undone (R516). -/
def execPowerDownEnd (m : Sample) (undrained : Nat) (s : State) : Host.Outcome State Fault Refusal :=
  if !s.rst.powering || s.rst.tripped then .next s
  else
    let n := (s.subs.map fun e => e.2.length).sum + undrained
    .next ((((s.finalRecords m).pit 0x0A 2 (leBytes 4 n)).mailAbort (decide <| · < 32)).holdDomains)

end Sys2Proof.Machine
end

