-- ==== Sys2Proof/Machine/Memory.lean ====
section
/-!
DEFINITION. Memory instructions of gangs: their rows, loads in flight (R181, R182, R194), stores that reach their points of coherence
(R180, R193), traps (R81 to R84), and the debugger's operations that complete (R91, R92).
-/

namespace Sys2Proof.Machine

/-! Loads return (R182, R194). -/

/-- The value that a load of n bytes puts into its registers (R112). -/
def loadVal (n : Nat) (sx : Bool) (v : Nat) : Nat :=
  let v := v % 2 ^ (8 * n)
  if n < 4 && sx then twos 32 (sgn (8 * n) v) else v

/-- LOAD_RETURN (R182): load i of the gang, its data here, delivers when no earlier load of its threads has still to. -/
def execLoadReturn (g i : Nat) (s : State) : Host.Outcome State Fault Refusal :=
  let x := s.gang g
  match x.pend[i]? with
  | none => .next s
  | some p =>
    let earlier := (x.pend.take i).any fun q => q.kind != .sem && q.lanes.any fun l => p.lanes.any fun m => m.lane == l.lane
    if p.kind = .sem || earlier || !p.lanes.all (·.ready) then .next s
    else
      let n := (p.size + 3) / 4
      let s := s.updGang g fun x =>
        let x := { x with pend := x.pend.erase p }
        p.lanes.foldl (init := x) fun x l =>
          x.setReg p.dst n l.lane (loadVal p.size p.sx l.data) (match l.poison with | some a => a + 1 | none => 0)
      let s := if p.kind = .acquire && p.devScope then s.clearL1 (coreOf g) else s
      .next ((s.settle g).reclaim x.k.part)

/-- LOAD_TIMEOUT (R194): the lanes of load i that still await a host or another device complete as failed. -/
def execLoadTimeout (g i : Nat) (s : State) : Host.Outcome State Fault Refusal :=
  match (s.gang g).pend[i]? with
  | none => .next s
  | some p =>
    if p.kind = .sem || p.lanes.all (·.ready) then .next s
    else
      let s := s.dropWaiters fun w => match w with | .load h id _ => h == g && id == p.id | _ => false
      .next (p.lanes.foldl (fun s l => if l.ready then s else s.laneAnswer g p.id l.lane 0 true) s)

/-! Stores reach their points of coherence (R180, R193). -/

/-- The space of a place (R176). -/
def Loc.space : Loc → Nat
  | .ws _ _ => 0 | .dev _ => 1 | .l2s _ _ => 2 | .host _ _ _ => 3 | .adit _ _ _ _ _ => 4 | .ctrl _ _ => 5 | .lost => 6

/-- Entry i of a sub-core's buffer may leave (R113, R119, R178, R180): no earlier one of its gang to the same bytes; a release
after all earlier ones of its thread; to a host or an adit in the thread's order for that space. Entries to the other spaces reach
their points of coherence in any order, having left in theirs. -/
def mayLeave (l : List StEntry) (i : Nat) (e : StEntry) : Bool :=
  let before := (l.take i).filter fun x => x.gang == e.gang
  let mine := before.filter fun x => x.lane == e.lane
  let far := match e.loc with | .host _ _ _ => true | .adit _ _ _ _ _ => true | _ => false
  !(before.any fun x => x.loc.overlaps x.size e.loc e.size) &&
  (e.kind == .plain || mine.isEmpty) &&
  (!far || !(mine.any fun x => x.tag.isNone && x.loc.space == e.loc.space))

/-- A store is performed. -/
def State.drain (s : State) (b i : Nat) (e : StEntry) : State :=
  let k := (s.gang e.gang).k
  let r := s.req k.part k.tally 0
  let d := leBytes e.size e.data
  match e.loc with
  | .ws c a => (s.wsWrite c a d).storeDone b e
  | .l2s p a =>
    let s := s.charge k.part k.tally 6 1
    let s := if e.kind = .semRelease || e.size < 8 then s.scratchMeet p a e.size else s
    if e.kind = .semRelease then
      if s.l2sPoison p a 8 then s.storeDone b e
      else ((s.l2sWrite p a (leBytes 8 (max (leVal (s.l2sRead p a 8)) e.data))).storeDone b e).semCheck
    else ((s.l2sWrite p a d).storeDone b e).semCheck
  | .dev a =>
    let core := b / 4
    if e.kind = .semRelease then (((s.semRaise r a e.data).2.l1Drop core a).storeDone b e).semCheck
    else (((s.homeWrite r a d).l1Store core a d).storeDone b e).semCheck
  | .host h a rlx =>
    if (s.port h).dom == .ready then
      (((s.send h (.write (s.hostFn k.part h) a d (rlx && e.kind == .plain))).charge k.part k.tally 10 (ceilDiv e.size 64)).noteHost k.part k.ring h).storeDone b e
    else s.storeLost b e
  | .adit p w dev far off =>
    if e.tag.isSome then s
    else if !s.reachable dev then s.storeLost b e
    else
      match s.aditSend p k.tally 0x11 w dev far off e.size 0 0 d (.store b) with
      | none => s
      | some (tag, s) => s.setSub b ((s.sub b).mapIdx fun j x => if j = i then { x with tag := some tag } else x)
  | _ => s.storeLost b e

/-- STORE_DRAIN (R180). -/
def execStoreDrain (b i : Nat) (s : State) : Host.Outcome State Fault Refusal :=
  match (s.sub b)[i]? with
  | none => .next s
  | some e => if mayLeave (s.sub b) i e && !(match e.loc with | .dev a => s.writeHeld a || (e.kind == .semRelease && s.lineHeld a) | _ => false) then .next (s.drain b i e) else .next s

/-- ADIT_STORE_TIMEOUT (R193): entry i of the buffer has had no acknowledgement for 1 ms. -/
def execAditStoreTimeout (b i : Nat) (s : State) : Host.Outcome State Fault Refusal :=
  match (s.sub b)[i]? with
  | none => .next s
  | some e =>
    match e.tag with
    | none => .next s
    | some t => .next ((s.dropTag t).storeLost b e)

/-- SEMAPHORE_POLL (R120): a waiting word is checked. -/
def execSemaphorePoll (k : Poller) (s : State) : Host.Outcome State Fault Refusal :=
  match k with
  | .gang g => .next (s.semGang g)
  | .cmd p k => .next (s.semCmd p k)

/-! Traps (R81 to R84) and the debugger (R91, R92). -/

/-- Every instruction that the gang issued has completed, and its stores have drained (R81, R91, R137). `runs`: its matrix runs
too. A path that waits at a semaphore or a conveyor has nothing outstanding (DESIGN CHOICE, log entry 98: its wait might never end). -/
def State.quiet (s : State) (g : Nat) (runs : Bool) : Bool :=
  ((s.gang g).pend.all fun p => p.kind == .sem) && (s.entriesOf g).isEmpty &&
  (!runs || (s.core (coreOf g)).units.all fun e => e.2.runs.all fun r => r.gang != g)

/-- The KERNEL_TRAP record of a gang (R83, R521). -/
def State.trapRecord (s : State) (g : Nat) (t : Trap) (halted : Bool) : State :=
  let d := leBytes 1 t.code ++ leBytes 1 0 ++ leBytes 2 (coreOf g) ++ leBytes 4 t.mask ++ padTo 16 t.extra
  s.report (s.gang g).k.part 0x0001 1 g t.pc d true (if halted then 2 else 0)

/-- KERNEL_TRAP (R81 to R84): a trap is reported. Under trap stop the gang halts; else the ring is guilty, once for all the
gangs of the kernel whose traps can be reported, in ascending order. -/
def execKernelTrap (g : Nat) (s : State) : Host.Outcome State Fault Refusal :=
  let x := s.gang g
  match x.trap with
  | none => .next s
  | some t =>
    if !x.live || !s.quiet g true then .next s
    else if bit s.trapStop x.k.part then
      .next ((s.trapRecord g t true).updGang g fun x => { x with mode := .halted, stepPath := 0, cause := t.code, trap := none })
    else
      let gs := s.gangs.filter fun e => e.2.live && e.2.trap.isSome && e.2.k.part == x.k.part && e.2.k.cmd == x.k.cmd && s.quiet e.1 true
      let s := gs.foldl (init := s) fun s e => match e.2.trap with | some u => s.trapRecord e.1 u false | none => s
      .next (s.guilty x.k.part x.k.ring 1)

/-- HALT_COMPLETE (R91). -/
def execHaltComplete (g : Nat) (s : State) : Host.Outcome State Fault Refusal :=
  let x := s.gang g
  if x.live && x.mode = .halting && x.trap.isNone && s.quiet g false then
    .next (s.updGang g fun x => { x with mode := .halted, cause := 0 })
  else .next s

/-- STEP_COMPLETE (R92): the stepped instruction has issued and completed. -/
def execStepComplete (g : Nat) (s : State) : Host.Outcome State Fault Refusal :=
  let x := s.gang g
  if x.live && x.mode = .stepping && x.stepPath = 0 && x.trap.isNone && s.quiet g false then
    .next (s.updGang g fun x => { x with mode := .halted, cause := 0 })
  else .next s

/-! The rows. -/

/-- Registers as every requester reaches them. -/
def regIo : RegIo := { read := State.ctrlRead, write := State.ctrlWrite }

def execLd (g : Nat) (w x : DWord) (flips : List Flip) (s : State) : Host.Outcome State Fault Refusal :=
  .next (issue (loadSem regIo false) 0x70 g w x (s.disturb flips)).engineActions
def execSt (g : Nat) (w x : DWord) (s : State) : Host.Outcome State Fault Refusal := .next (issue (storeSem regIo false) 0x71 g w x s).engineActions
def execAtom (g : Nat) (w x : DWord) (s : State) : Host.Outcome State Fault Refusal := .next (issue semAtom 0x72 g w x s)
def execLdAcquire (g : Nat) (w x : DWord) (s : State) : Host.Outcome State Fault Refusal := .next (issue (loadSem regIo true) 0x73 g w x s)
def execStRelease (g : Nat) (w x : DWord) (s : State) : Host.Outcome State Fault Refusal := .next (issue (storeSem regIo true) 0x74 g w x s)
def execSemAcquire (g : Nat) (w x : DWord) (s : State) : Host.Outcome State Fault Refusal :=
  .next ((issue semSemAcquire 0x75 g w x s).semGang g)
def execSemRelease (g : Nat) (w x : DWord) (s : State) : Host.Outcome State Fault Refusal := .next (issue (semSemRelease regIo) 0x76 g w x s)

end Sys2Proof.Machine
end

