-- ==== Sys2Proof/Machine/Power.lean ====
section
/-!
DEFINITION. Power, temperature and the TAP (R503 to R514).
-/

namespace Sys2Proof.Machine

/-! Pacing (R509, R510). -/

/-- A thermal share's next value: up at the onset temperature and above, down from 2 °C below it. -/
def paceStep (onset temp share : Nat) : Nat :=
  if onset ≤ temp then min 63 (share + 1) else if temp + 2 ≤ onset then share - 1 else share

/-- The envelope's share: raised above ENVELOPE_W, lowered below it, by a free amount, within 60/64 (R509). -/
def envStep (limit mw v share : Nat) : Nat :=
  if limit < mw then min 60 (share + 1 + v % 60) else if mw < limit then share - 1 - v % 60 else share

/-- The share that tier t needs: the larger of the envelope's and the thermal ones, and 32/64 with a failed regulator (R508). -/
def Pwr.need (x : Pwr) (t : Nat) : Nat :=
  max (max x.env (x.thermal.getD t 0)) (max x.stackPace (if bit x.avsFail t then 32 else 0))

def Pwr.applied (x : Pwr) : Pwr := { x with share := (List.range 4).map x.need }

/-- PACING_UPDATE (R509, R510, R513, R514), every 10 µs. -/
def execPacingUpdate (m : PaceIn) (s : State) : Host.Outcome State Fault Refusal :=
  if !s.rel 1 then .next s
  else
    let (v, s) := s.draw
    let limit := s.sv.envelope * 1000
    let x := s.pwr
    let temp := fun (t : Nat) => min 255 (m.tiers.getD t 0)
    let env := envStep limit m.mw100 v.toNat x.env
    .next { s with pwr := Pwr.applied { x with
      temps := (List.range 4).map temp
      stack := min 255 m.stack
      amps := min 4095 m.amps
      env := env
      thermal := (List.range 4).map fun t => paceStep 100 (temp t) (x.thermal.getD t 0)
      stackPace := paceStep 95 (min 255 m.stack) x.stackPace
      miss := if m.mw10ms ≤ limit then false else x.miss || x.env == 60 } }

/-- THERMAL_TRIP (R511, R516): work stops until power is removed; in a power-down what has not drained is lost, and SAFE_OFF stays 0.
Sensors are numbered 16 a tier, then 4 a base die, then the 16 stacks. -/
def execThermalTrip (sensor : Nat) (s : State) : Host.Outcome State Fault Refusal :=
  if sensor ≥ 96 || s.rst.tripped || !s.rst.pwrGood then .next s
  else
    let s := if s.rst.powering then { s with subs := [] } else s
    .next { s with rst := { s.rst with tripped := true, powering := false } }

/-! The regulators (R507, R508). -/

/-- The set-point of tier t follows the trim record: the Deputy has read it, and the device is not in Refuge (R507, R516). -/
def State.avsOn (s : State) : Bool := decide (2 ≤ s.rst.stage) && s.rst.refuge == 0

/-- A set-point in units of 5 mV within 0.650 V to 0.850 V. -/
def setPoint (n : Nat) : Nat := min 170 (max 130 n)

/-- VCORE_SETPOINT_UPDATE (R507): re-evaluated at the tier's hottest sensor; the steps of 5 mV are acknowledged, unless the tier's
regulator has failed. -/
def execVcoreSetpointUpdate (t temp : Nat) (s : State) : Host.Outcome State Fault Refusal :=
  if t ≥ 4 || !s.avsOn then .next s
  else
    let n := setPoint (Config.trimSetPoint t temp)
    let x := { s.pwr with avsTarget := s.pwr.avsTarget.set t n }
    .next { s with pwr := if bit x.avsFail t then x else { x with setp := x.setp.set t n, avsTries := x.avsTries.set t 0 } }

/-- AVS_WRITE_TIMEOUT (R508): the attempt is retried; the third, or a fault in the regulator's Status, marks the tier. -/
def execAvsWriteTimeout (t : Nat) (fault : Bool) (s : State) : Host.Outcome State Fault Refusal :=
  if t ≥ 4 || !s.rel 0 || bit s.pwr.avsFail t then .next s
  else
    let n := s.pwr.avsTries.getD t 0 + 1
    if fault || n ≥ 3 then
      .next { s with pwr := Pwr.applied { s.pwr with avsFail := s.pwr.avsFail + 2 ^ t, avsTries := s.pwr.avsTries.set t 0 } }
    else .next { s with pwr := { s.pwr with avsTries := s.pwr.avsTries.set t n } }

/-- AVS_RETRY (R508): an acknowledged write moves the set-point a step, and clears the mark and its pacing floor. -/
def execAvsRetry (t : Nat) (ack : Bool) (s : State) : Host.Outcome State Fault Refusal :=
  if t ≥ 4 || !bit s.pwr.avsFail t || !ack then .next s
  else
    let x := s.pwr
    let a := x.setp.getD t 160
    let b := x.avsTarget.getD t 160
    .next { s with pwr := Pwr.applied { x with
      avsFail := x.avsFail - 2 ^ t, setp := x.setp.set t (if a < b then a + 1 else if b < a then a - 1 else a) } }

/-! The TAP (R512). -/

/-- TRST_N: the TAP is reset. -/
def execTrstN (s : State) : Host.Outcome State Fault Refusal := .next { s with rst := { s.rst with extest := false } }

/-- EXTEST: accepted while SYS_RST_N is low or SAFE_OFF is set; else the TAP loads BYPASS. -/
def execExtest (s : State) : Host.Outcome State Fault Refusal :=
  .next { s with rst := { s.rst with extest := s.rst.pwrGood && (!s.rst.sysRstN || s.rst.safeOff) } }

end Sys2Proof.Machine
end

