-- ==== Sys2Proof/Machine/Stepping.lean ====
section
/-!
DEFINITION. The instruction that a debugger steps (R92): an instruction word's own opcode chooses its meaning (R101).
-/

namespace Sys2Proof.Machine

/-- A gang issues the word that its step has fetched; the words of waiting semaphores are checked at once. -/
def State.issueAny (s : State) (g : Nat) (w x : DWord) : State :=
  ((issueTurn (semOf regIo (fld w 57 50)) g w.toNat x.toNat s).semGang g).engineActions

/-- A step of the gang that function q has selected. -/
def State.stepOne (s : State) (q : Nat) (lane : Option Nat) (w x : DWord) : State :=
  let g := (s.fn q).dbg.gangSel % 65536
  s.dbgWrite q fun s =>
    let s := semStepStart q lane s
    if (s.gang g).mode = .stepping && (s.fn q).dbg.result = 0 then s.issueAny g w x else s

def execStepGang (q : Nat) (w x : DWord) (s : State) : Host.Outcome State Fault Refusal := .next (s.stepOne q none w x)
def execStepPath (q lane : Nat) (w x : DWord) (s : State) : Host.Outcome State Fault Refusal := .next (s.stepOne q (some (lane % 32)) w x)

end Sys2Proof.Machine
end

