-- ==== Sys2Proof/Machine/Dispatch.lean ====
section
/-!
DEFINITION. exec: one arm per command, in the table's order.
-/

namespace Sys2Proof.Machine

/-- The effect of one command on everything but the queue. -/
def exec (i : Instr) (s : State) : Host.Outcome State Fault Refusal :=
  match i with
  | .iadd g w x => Sys2Proof.Machine.execIadd g w x s
  | .isub g w x => Sys2Proof.Machine.execIsub g w x s
  | .imul g w x => Sys2Proof.Machine.execImul g w x s
  | .imulhiU g w x => Sys2Proof.Machine.execImulhiU g w x s
  | .imulhiS g w x => Sys2Proof.Machine.execImulhiS g w x s
  | .imad g w x => Sys2Proof.Machine.execImad g w x s
  | .idivU g w x => Sys2Proof.Machine.execIdivU g w x s
  | .idivS g w x => Sys2Proof.Machine.execIdivS g w x s
  | .iremU g w x => Sys2Proof.Machine.execIremU g w x s
  | .iremS g w x => Sys2Proof.Machine.execIremS g w x s
  | .iminU g w x => Sys2Proof.Machine.execIminU g w x s
  | .iminS g w x => Sys2Proof.Machine.execIminS g w x s
  | .imaxU g w x => Sys2Proof.Machine.execImaxU g w x s
  | .imaxS g w x => Sys2Proof.Machine.execImaxS g w x s
  | .iabs g w x => Sys2Proof.Machine.execIabs g w x s
  | .ineg g w x => Sys2Proof.Machine.execIneg g w x s
  | .and g w x => Sys2Proof.Machine.execAnd g w x s
  | .or g w x => Sys2Proof.Machine.execOr g w x s
  | .xor g w x => Sys2Proof.Machine.execXor g w x s
  | .not g w x => Sys2Proof.Machine.execNot g w x s
  | .shl g w x => Sys2Proof.Machine.execShl g w x s
  | .shr g w x => Sys2Proof.Machine.execShr g w x s
  | .sar g w x => Sys2Proof.Machine.execSar g w x s
  | .popc g w x => Sys2Proof.Machine.execPopc g w x s
  | .clz g w x => Sys2Proof.Machine.execClz g w x s
  | .brev g w x => Sys2Proof.Machine.execBrev g w x s
  | .mov g w x => Sys2Proof.Machine.execMov g w x s
  | .shfl g w x => Sys2Proof.Machine.execShfl g w x s
  | .laneid g w x => Sys2Proof.Machine.execLaneid g w x s
  | .mdescSet g w x => Sys2Proof.Machine.execMdescSet g w x s
  | .mdescGet g w x => Sys2Proof.Machine.execMdescGet g w x s
  | .prd g w x => Sys2Proof.Machine.execPrd g w x s
  | .pwr g w x => Sys2Proof.Machine.execPwr g w x s
  | .icmpEq g w x => Sys2Proof.Machine.execIcmpEq g w x s
  | .icmpNe g w x => Sys2Proof.Machine.execIcmpNe g w x s
  | .icmpLtU g w x => Sys2Proof.Machine.execIcmpLtU g w x s
  | .icmpGeU g w x => Sys2Proof.Machine.execIcmpGeU g w x s
  | .icmpLtS g w x => Sys2Proof.Machine.execIcmpLtS g w x s
  | .icmpGeS g w x => Sys2Proof.Machine.execIcmpGeS g w x s
  | .fadd g w x => Sys2Proof.Machine.execFadd g w x s
  | .fsub g w x => Sys2Proof.Machine.execFsub g w x s
  | .fmul g w x => Sys2Proof.Machine.execFmul g w x s
  | .ffma g w x => Sys2Proof.Machine.execFfma g w x s
  | .fdiv g w x => Sys2Proof.Machine.execFdiv g w x s
  | .fsqrt g w x => Sys2Proof.Machine.execFsqrt g w x s
  | .fmin g w x => Sys2Proof.Machine.execFmin g w x s
  | .fmax g w x => Sys2Proof.Machine.execFmax g w x s
  | .fabs g w x => Sys2Proof.Machine.execFabs g w x s
  | .fneg g w x => Sys2Proof.Machine.execFneg g w x s
  | .frcpApprox g w x => Sys2Proof.Machine.execFrcpApprox g w x s
  | .frsqApprox g w x => Sys2Proof.Machine.execFrsqApprox g w x s
  | .fex2Approx g w x => Sys2Proof.Machine.execFex2Approx g w x s
  | .flg2Approx g w x => Sys2Proof.Machine.execFlg2Approx g w x s
  | .fsinApprox g w x => Sys2Proof.Machine.execFsinApprox g w x s
  | .fcosApprox g w x => Sys2Proof.Machine.execFcosApprox g w x s
  | .ftanhApprox g w x => Sys2Proof.Machine.execFtanhApprox g w x s
  | .fcmpEq g w x => Sys2Proof.Machine.execFcmpEq g w x s
  | .fcmpNe g w x => Sys2Proof.Machine.execFcmpNe g w x s
  | .fcmpLt g w x => Sys2Proof.Machine.execFcmpLt g w x s
  | .fcmpLe g w x => Sys2Proof.Machine.execFcmpLe g w x s
  | .fcmpGt g w x => Sys2Proof.Machine.execFcmpGt g w x s
  | .fcmpGe g w x => Sys2Proof.Machine.execFcmpGe g w x s
  | .fcmpUnord g w x => Sys2Proof.Machine.execFcmpUnord g w x s
  | .fcmpOrd g w x => Sys2Proof.Machine.execFcmpOrd g w x s
  | .cvtTo g w x => Sys2Proof.Machine.execCvtTo g w x s
  | .cvtFrom g w x => Sys2Proof.Machine.execCvtFrom g w x s
  | .bra g w x => Sys2Proof.Machine.execBra g w x s
  | .brx g w x => Sys2Proof.Machine.execBrx g w x s
  | .call g w x => Sys2Proof.Machine.execCall g w x s
  | .callx g w x => Sys2Proof.Machine.execCallx g w x s
  | .ret g w x => Sys2Proof.Machine.execRet g w x s
  | .exit g w x => Sys2Proof.Machine.execExit g w x s
  | .yield g w x => Sys2Proof.Machine.execYield g w x s
  | .trap g w x => Sys2Proof.Machine.execTrap g w x s
  | .brk g w x => Sys2Proof.Machine.execBrk g w x s
  | .ld g w x flips => Sys2Proof.Machine.execLd g w x flips s
  | .st g w x => Sys2Proof.Machine.execSt g w x s
  | .atom g w x => Sys2Proof.Machine.execAtom g w x s
  | .ldAcquire g w x => Sys2Proof.Machine.execLdAcquire g w x s
  | .stRelease g w x => Sys2Proof.Machine.execStRelease g w x s
  | .semAcquire g w x => Sys2Proof.Machine.execSemAcquire g w x s
  | .semRelease g w x => Sys2Proof.Machine.execSemRelease g w x s
  | .fence g w x => Sys2Proof.Machine.execFence g w x s
  | .barGang g w x => Sys2Proof.Machine.execBarGang g w x s
  | .barNamed g w x => Sys2Proof.Machine.execBarNamed g w x s
  | .cvPush g w x => Sys2Proof.Machine.execCvPush g w x s
  | .cvPop g w x => Sys2Proof.Machine.execCvPop g w x s
  | .cvPushTry g w x => Sys2Proof.Machine.execCvPushTry g w x s
  | .cvPopTry g w x => Sys2Proof.Machine.execCvPopTry g w x s
  | .mfragLoad g w x => Sys2Proof.Machine.execMfragLoad g w x s
  | .mfragStore g w x => Sys2Proof.Machine.execMfragStore g w x s
  | .mmaStat g w x => Sys2Proof.Machine.execMmaStat g w x s
  | .mmaRun g w x => Sys2Proof.Machine.execMmaRun g w x s
  | .mmaDrain g w x => Sys2Proof.Machine.execMmaDrain g w x s
  | .timeRd g w x => Sys2Proof.Machine.execTimeRd g w x s
  | .gstRd g w x => Sys2Proof.Machine.execGstRd g w x s
  | .gstClr g w x => Sys2Proof.Machine.execGstClr g w x s
  | .loadReturn g j => Sys2Proof.Machine.execLoadReturn g j s
  | .storeDrain b j => Sys2Proof.Machine.execStoreDrain b j s
  | .loadTimeout g j => Sys2Proof.Machine.execLoadTimeout g j s
  | .aditStoreTimeout b j => Sys2Proof.Machine.execAditStoreTimeout b j s
  | .semaphorePoll k => Sys2Proof.Machine.execSemaphorePoll k s
  | .barrierDeadlock core => Sys2Proof.Machine.execBarrierDeadlock core s
  | .kernelTrap g => Sys2Proof.Machine.execKernelTrap g s
  | .gangStart p k g => Sys2Proof.Machine.execGangStart p k g s
  | .mmaRunComplete core u => Sys2Proof.Machine.execMmaRunComplete core u s
  | .halt q => Sys2Proof.Machine.execHalt q s
  | .haltComplete g => Sys2Proof.Machine.execHaltComplete g s
  | .resume q => Sys2Proof.Machine.execResume q s
  | .stepGang q w x => Sys2Proof.Machine.execStepGang q w x s
  | .stepPath q lane w x => Sys2Proof.Machine.execStepPath q lane w x s
  | .stepComplete g => Sys2Proof.Machine.execStepComplete g s
  | .regRead q => Sys2Proof.Machine.execRegRead q s
  | .regWrite q => Sys2Proof.Machine.execRegWrite q s
  | .fault q => Sys2Proof.Machine.execFault q s
  | .dbgLanePcWrite q lane v => Sys2Proof.Machine.execDbgLanePcWrite q lane v s
  | .registerWrite q off size v => Sys2Proof.Machine.execRegisterWrite q off size v s
  | .readClear q off size => Sys2Proof.Machine.execReadClear q off size s
  | .halfReadLatch q off => Sys2Proof.Machine.execHalfReadLatch q off s
  | .devPartSel q v => Sys2Proof.Machine.execDevPartSel q v s
  | .validate q => Sys2Proof.Machine.execValidate q s
  | .apply q => Sys2Proof.Machine.execApply q s
  | .store q => Sys2Proof.Machine.execStore q s
  | .abort q => Sys2Proof.Machine.execAbort q s
  | .surveyValidationEnd img => Sys2Proof.Machine.execSurveyValidationEnd img s
  | .surveyDrainEnd => Sys2Proof.Machine.execSurveyDrainEnd s
  | .surveyApplyEnd => Sys2Proof.Machine.execSurveyApplyEnd s
  | .surveyStoreEnd => Sys2Proof.Machine.execSurveyStoreEnd s
  | .cmdRingCommit q n => Sys2Proof.Machine.execCmdRingCommit q n s
  | .cmdSumpCommit q => Sys2Proof.Machine.execCmdSumpCommit q s
  | .fltRingCommit q => Sys2Proof.Machine.execFltRingCommit q s
  | .ckwEringCommit q => Sys2Proof.Machine.execCkwEringCommit q s
  | .plcSeamCommit q j => Sys2Proof.Machine.execPlcSeamCommit q j s
  | .xltAditCommit q a => Sys2Proof.Machine.execXltAditCommit q a s
  | .timCadCommit q => Sys2Proof.Machine.execTimCadCommit q s
  | .commitSwap k => Sys2Proof.Machine.execCommitSwap k s
  | .cmdDoorbell q p n v => Sys2Proof.Machine.execCmdDoorbell q p n v s
  | .ringEnable q n on => Sys2Proof.Machine.execRingEnable q n on s
  | .guilty q n => Sys2Proof.Machine.execGuilty q n s
  | .ringResume q n => Sys2Proof.Machine.execRingResume q n s
  | .cmdSumpHead q v => Sys2Proof.Machine.execCmdSumpHead q v s
  | .fltRingHead q v => Sys2Proof.Machine.execFltRingHead q v s
  | .fltDringHead q v => Sys2Proof.Machine.execFltDringHead q v s
  | .ckwEringHead q v => Sys2Proof.Machine.execCkwEringHead q v s
  | .timSet q v => Sys2Proof.Machine.execTimSet q v s
  | .fltPitSel q v => Sys2Proof.Machine.execFltPitSel q v s
  | .lampCapture q p => Sys2Proof.Machine.execLampCapture q p s
  | .lampCaptureEnd q => Sys2Proof.Machine.execLampCaptureEnd q s
  | .copyRetry q e => Sys2Proof.Machine.execCopyRetry q e s
  | .copyAbort q e => Sys2Proof.Machine.execCopyAbort q e s
  | .portHold q port on => Sys2Proof.Machine.execPortHold q port on s
  | .retrain q port => Sys2Proof.Machine.execRetrain q port s
  | .launch p n c => Sys2Proof.Machine.execLaunch p n c s
  | .graphLaunch p n c => Sys2Proof.Machine.execGraphLaunch p n c s
  | .graphPatch p n c => Sys2Proof.Machine.execGraphPatch p n c s
  | .copy p n c => Sys2Proof.Machine.execCopy p n c s
  | .copyInline p n c => Sys2Proof.Machine.execCopyInline p n c s
  | .fenceSignal p n c => Sys2Proof.Machine.execFenceSignal p n c s
  | .fenceWait p n c => Sys2Proof.Machine.execFenceWait p n c s
  | .cond p n c => Sys2Proof.Machine.execCond p n c s
  | .loop p n c => Sys2Proof.Machine.execLoop p n c s
  | .ringCall p n c => Sys2Proof.Machine.execRingCall p n c s
  | .timeWait p n c => Sys2Proof.Machine.execTimeWait p n c s
  | .timeWaitReached p k => Sys2Proof.Machine.execTimeWaitReached p k s
  | .gateWait p n c => Sys2Proof.Machine.execGateWait p n c s
  | .tallyOpen p n c => Sys2Proof.Machine.execTallyOpen p n c s
  | .tallyClose p n c => Sys2Proof.Machine.execTallyClose p n c s
  | .complete p n c => Sys2Proof.Machine.execComplete p n c s
  | .xltInval p n c => Sys2Proof.Machine.execXltInval p n c s
  | .tensor p n c => Sys2Proof.Machine.execTensor p n c s
  | .release p n c => Sys2Proof.Machine.execRelease p n c s
  | .stage p n c => Sys2Proof.Machine.execStage p n c s
  | .conveyor p n c => Sys2Proof.Machine.execConveyor p n c s
  | .regionLoad p n c => Sys2Proof.Machine.execRegionLoad p n c s
  | .seal p n c => Sys2Proof.Machine.execSeal p n c s
  | .regionMap p n c => Sys2Proof.Machine.execRegionMap p n c s
  | .placeQuery p n c => Sys2Proof.Machine.execPlaceQuery p n c s
  | .placePin p n c => Sys2Proof.Machine.execPlacePin p n c s
  | .redJoin p n c => Sys2Proof.Machine.execRedJoin p n c s
  | .leave p n c => Sys2Proof.Machine.execLeave p n c s
  | .redStep p n c => Sys2Proof.Machine.execRedStep p n c s
  | .lampCheck p n c => Sys2Proof.Machine.execLampCheck p n c s
  | .reservedOpcode p n c => Sys2Proof.Machine.execReservedOpcode p n c s
  | .commandRetire p k => Sys2Proof.Machine.execCommandRetire p k s
  | .aditRd m => Sys2Proof.Machine.execAditRd m s
  | .aditWr m => Sys2Proof.Machine.execAditWr m s
  | .aditAtom m => Sys2Proof.Machine.execAditAtom m s
  | .aditRsp m => Sys2Proof.Machine.execAditRsp m s
  | .agentRequest a line r => Sys2Proof.Machine.execAgentRequest a line r s
  | .agentTimeout a line => Sys2Proof.Machine.execAgentTimeout a line s
  | .refresh pch => Sys2Proof.Machine.execRefresh pch s
  | .wcEntryTimeout sl j => Sys2Proof.Machine.execWcEntryTimeout sl j s
  | .phyMarginLoss ch => Sys2Proof.Machine.execPhyMarginLoss ch s
  | .urgentRetrain ch => Sys2Proof.Machine.execUrgentRetrain ch s
  | .channelHoldEnd ch stuck => Sys2Proof.Machine.execChannelHoldEnd ch stuck s
  | .channelHoldExpiry ch => Sys2Proof.Machine.execChannelHoldExpiry ch s
  | .channelTrainingEnd failed => Sys2Proof.Machine.execChannelTrainingEnd failed s
  | .evaluationTimer => Sys2Proof.Machine.execEvaluationTimer s
  | .crewProposal d => Sys2Proof.Machine.execCrewProposal d s
  | .moveGroupEnd p t => Sys2Proof.Machine.execMoveGroupEnd p t s
  | .forcedMoveStart p t => Sys2Proof.Machine.execForcedMoveStart p t s
  | .ppsEdge high => Sys2Proof.Machine.execPpsEdge high s
  | .ppsTimeout => Sys2Proof.Machine.execPpsTimeout s
  | .holdoverExpiry => Sys2Proof.Machine.execHoldoverExpiry s
  | .slewEnd => Sys2Proof.Machine.execSlewEnd s
  | .time port m => Sys2Proof.Machine.execTime port m s
  | .timeExchangeTimer => Sys2Proof.Machine.execTimeExchangeTimer s
  | .cadencePeriodStart => Sys2Proof.Machine.execCadencePeriodStart s
  | .gateOpen k => Sys2Proof.Machine.execGateOpen k s
  | .go k => Sys2Proof.Machine.execGo k s
  | .shotBegin k => Sys2Proof.Machine.execShotBegin k s
  | .shotEnd k => Sys2Proof.Machine.execShotEnd k s
  | .tallyCut k m => Sys2Proof.Machine.execTallyCut k m s
  | .snapshot k => Sys2Proof.Machine.execSnapshot k s
  | .stepDeadline k => Sys2Proof.Machine.execStepDeadline k s
  | .laneSignalDetect port lanes => Sys2Proof.Machine.execLaneSignalDetect port lanes s
  | .trainComplete port lanes => Sys2Proof.Machine.execTrainComplete port lanes s
  | .trainTimeout port => Sys2Proof.Machine.execTrainTimeout port s
  | .discoverTimeout port => Sys2Proof.Machine.execDiscoverTimeout port s
  | .holdTimeout port => Sys2Proof.Machine.execHoldTimeout port s
  | .linkLoss port lost => Sys2Proof.Machine.execLinkLoss port lost s
  | .frameReplay port => Sys2Proof.Machine.execFrameReplay port s
  | .hello port m => Sys2Proof.Machine.execHello port m s
  | .helloTimer => Sys2Proof.Machine.execHelloTimer s
  | .lsa port m => Sys2Proof.Machine.execLsa port m s
  | .lsaTimer => Sys2Proof.Machine.execLsaTimer s
  | .lsaExpiry serial => Sys2Proof.Machine.execLsaExpiry serial s
  | .leaderElection => Sys2Proof.Machine.execLeaderElection s
  | .assignReq port m => Sys2Proof.Machine.execAssignReq port m s
  | .assignReqTimer => Sys2Proof.Machine.execAssignReqTimer s
  | .leaderAssignTimer => Sys2Proof.Machine.execLeaderAssignTimer s
  | .assign port m => Sys2Proof.Machine.execAssign port m s
  | .reach d => Sys2Proof.Machine.execReach d s
  | .reachHoldExpiry d => Sys2Proof.Machine.execReachHoldExpiry d s
  | .flitForward port f => Sys2Proof.Machine.execFlitForward port f s
  | .cvData m => Sys2Proof.Machine.execCvData m s
  | .cvCredit m => Sys2Proof.Machine.execCvCredit m s
  | .cvCreditTimer p c => Sys2Proof.Machine.execCvCreditTimer p c s
  | .cvResend p c => Sys2Proof.Machine.execCvResend p c s
  | .redPart m => Sys2Proof.Machine.execRedPart m s
  | .redSum m => Sys2Proof.Machine.execRedSum m s
  | .redParam m => Sys2Proof.Machine.execRedParam m s
  | .redVerdict m => Sys2Proof.Machine.execRedVerdict m s
  | .redDecision m => Sys2Proof.Machine.execRedDecision m s
  | .decisionTimeout job => Sys2Proof.Machine.execDecisionTimeout job s
  | .noDecisionTimeout job => Sys2Proof.Machine.execNoDecisionTimeout job s
  | .bar2Read r len => Sys2Proof.Machine.execBar2Read r len s
  | .bar2Write r data => Sys2Proof.Machine.execBar2Write r data s
  | .configRequest port fn r => Sys2Proof.Machine.execConfigRequest port fn r s
  | .hostCompletion port tag ok data => Sys2Proof.Machine.execHostCompletion port tag ok data s
  | .perst port => Sys2Proof.Machine.execPerst port s
  | .perstRelease port => Sys2Proof.Machine.execPerstRelease port s
  | .dlDown port => Sys2Proof.Machine.execDlDown port s
  | .hotReset port => Sys2Proof.Machine.execHotReset port s
  | .creditTimeout port => Sys2Proof.Machine.execCreditTimeout port s
  | .linkRecovery port => Sys2Proof.Machine.execLinkRecovery port s
  | .functionLevelReset q => Sys2Proof.Machine.execFunctionLevelReset q s
  | .portReady port rate width flit => Sys2Proof.Machine.execPortReady port rate width flit s
  | .fwUpdate q slot => Sys2Proof.Machine.execFwUpdate q slot s
  | .svnCommit q => Sys2Proof.Machine.execSvnCommit q s
  | .ownerKey q => Sys2Proof.Machine.execOwnerKey q s
  | .retirePage q => Sys2Proof.Machine.execRetirePage q s
  | .claimPrimary q => Sys2Proof.Machine.execClaimPrimary q s
  | .debugLock q => Sys2Proof.Machine.execDebugLock q s
  | .mailboxOperationEnd blk flashOk => Sys2Proof.Machine.execMailboxOperationEnd blk flashOk s
  | .doeDiscovery port idx => Sys2Proof.Machine.execDoeDiscovery port idx s
  | .getVersion port => Sys2Proof.Machine.execGetVersion port s
  | .getCapabilities port => Sys2Proof.Machine.execGetCapabilities port s
  | .negotiateAlgorithms port p256 sha => Sys2Proof.Machine.execNegotiateAlgorithms port p256 sha s
  | .getDigests port => Sys2Proof.Machine.execGetDigests port s
  | .getCertificate port slot off len => Sys2Proof.Machine.execGetCertificate port slot off len s
  | .challenge port slot nonce => Sys2Proof.Machine.execChallenge port slot nonce s
  | .getMeasurements port idx sign nonce => Sys2Proof.Machine.execGetMeasurements port idx sign nonce s
  | .unlockChallenge => Sys2Proof.Machine.execUnlockChallenge s
  | .unlock b => Sys2Proof.Machine.execUnlock b s
  | .crewAccess core r wr addr v => Sys2Proof.Machine.execCrewAccess core r wr addr v s
  | .crewHeartbeatMiss core => Sys2Proof.Machine.execCrewHeartbeatMiss core s
  | .crewReloadEnd => Sys2Proof.Machine.execCrewReloadEnd s
  | .deputySelfReset cause => Sys2Proof.Machine.execDeputySelfReset cause s
  | .deputyRestartEnd => Sys2Proof.Machine.execDeputyRestartEnd s
  | .windowEnd m => Sys2Proof.Machine.execWindowEnd m s
  | .referenceCheck conv drift => Sys2Proof.Machine.execReferenceCheck conv drift s
  | .autoCut m => Sys2Proof.Machine.execAutoCut m s
  | .energyRecordSign p => Sys2Proof.Machine.execEnergyRecordSign p s
  | .checkweigherSelfReset => Sys2Proof.Machine.execCheckweigherSelfReset s
  | .faultHoldRetry => Sys2Proof.Machine.execFaultHoldRetry s
  | .pitLogWrite => Sys2Proof.Machine.execPitLogWrite s
  | .pitInfo => Sys2Proof.Machine.execPitInfo s
  | .pitRead sq off len => Sys2Proof.Machine.execPitRead sq off len s
  | .lampRead p fresh off len => Sys2Proof.Machine.execLampRead p fresh off len s
  | .pwrGoodRise railsOk => Sys2Proof.Machine.execPwrGoodRise railsOk s
  | .pwrGoodFall => Sys2Proof.Machine.execPwrGoodFall s
  | .sysRstNLow ns => Sys2Proof.Machine.execSysRstNLow ns s
  | .sysRstNHigh => Sys2Proof.Machine.execSysRstNHigh s
  | .railUndervoltage => Sys2Proof.Machine.execRailUndervoltage s
  | .domainRelease b => Sys2Proof.Machine.execDomainRelease b s
  | .shiftReady => Sys2Proof.Machine.execShiftReady s
  | .bootWatchdog => Sys2Proof.Machine.execBootWatchdog s
  | .sequencerSelfReset both => Sys2Proof.Machine.execSequencerSelfReset both s
  | .dieFatal t => Sys2Proof.Machine.execDieFatal t s
  | .fullReset q => Sys2Proof.Machine.execFullReset q s
  | .softwareResetDelay => Sys2Proof.Machine.execSoftwareResetDelay s
  | .powerDown q => Sys2Proof.Machine.execPowerDown q s
  | .powerDownEnd m undrained => Sys2Proof.Machine.execPowerDownEnd m undrained s
  | .tierReset q t => Sys2Proof.Machine.execTierReset q t s
  | .tierForce q t => Sys2Proof.Machine.execTierForce q t s
  | .tierResetEnd t => Sys2Proof.Machine.execTierResetEnd t s
  | .exitRefuge q => Sys2Proof.Machine.execExitRefuge q s
  | .pacingUpdate m => Sys2Proof.Machine.execPacingUpdate m s
  | .thermalTrip sensor => Sys2Proof.Machine.execThermalTrip sensor s
  | .vcoreSetpointUpdate t temp => Sys2Proof.Machine.execVcoreSetpointUpdate t temp s
  | .avsWriteTimeout t fault => Sys2Proof.Machine.execAvsWriteTimeout t fault s
  | .avsRetry t ack => Sys2Proof.Machine.execAvsRetry t ack s
  | .trstN => Sys2Proof.Machine.execTrstN s
  | .extest => Sys2Proof.Machine.execExtest s
  | .patrolScrub ch flips => Sys2Proof.Machine.execPatrolScrub ch flips s
  | .illegalOpcode g w x => Sys2Proof.Machine.execIllegalOpcode g w x s

end Sys2Proof.Machine
end

