-- ==== Sys2Proof/Safety.lean ====
section
/-!
DEFINITION. What counts as a safe device: the canonical form of the address spaces, the legal states of the release sequence, and the
order in which the lasting records of flash may change. Claims are stated in these terms.
-/

namespace Sys2Proof

open Sys2Proof.Machine

/-- The three address spaces are in canonical form: equal contents are equal data. -/
def Machine.State.memOk (s : State) : Bool := s.mem.dev.wf && s.mem.ws.wf && s.mem.l2s.wf && s.dpt.crewMem.wf

/-- The released domains at a stage of the release sequence (R25, R459, R474). After a reset of D0 alone the stages up to D2 may find
D0 to D2 released (R421). -/
def stageDomains (stage released : Nat) : Bool :=
  match stage with
  | 0 => released == 0 || released == 1 || released == 3 || released == 7
  | 1 => released == 3 || released == 7
  | 2 => released == 3 || released == 7
  | 3 => released == 3 || released == 7
  | 4 => released == 7
  | 5 => released == 7
  | 6 => released == 15
  | 7 => released == 31
  | 8 => released == 63
  | 9 => released == 127
  | 10 => released == 127
  | _ => false

/-- The sequencer's registers hold what R474 lets them hold, and the released domains follow the stage; with SAFE_OFF only D0 and D1
run (R465), in Refuge no stage beyond D2 is reached (R472), and with PWR_GOOD or SYS_RST_N low every domain is in reset (R456, R457). -/
def Machine.Rst.legal (x : Rst) : Bool :=
  ((x.pwrGood && x.sysRstN) || (x.released == 0 && x.stage == 0 && !x.safeOff && !x.powering)) &&
  (if x.safeOff then x.released == 3 && decide (x.stage ≤ 10) else stageDomains x.stage x.released) &&
  decide (x.refuge ≤ 4) && (x.refuge == 0 || decide (x.stage ≤ 4)) && decide (x.result ≤ 3) && decide (1 ≤ x.cause) && decide (x.cause ≤ 6) && decide (x.raw < 256)

/-- What no event takes back (R40, R425, R484): retired pages, the four anti-rollback counters, the Pit Log's SEQ. -/
structure Machine.Flash.le (a b : Flash) : Prop where
  retired : ∀ x ∈ a.retired, x ∈ b.retired
  counters : ∀ k, (a.counters.getD k (0, 0)).1 ≤ (b.counters.getD k (0, 0)).1
  pitSeq : a.pitSeq ≤ b.pitSeq

end Sys2Proof
end

