-- ==== Sys2Proof/Certificates/Slice0/Obligations.lean ====
section
/-!
DEFINITION. The statements about the device, in the terms of Safety and of the definitions below.
-/

open Sys2Proof Sys2Proof.Machine

namespace Sys2Proof

/-- Gang g is the one from which its sub-core issues now, along a path; the fetch gives the command's words (R63 to R67, R245), and leaves
the state u, in which the instruction cache and the TLB hold what was fetched. -/
structure Issues (op g : Nat) (w x : DWord) (s u : State) (path : Nat) : Prop where
  alive : s.alive g = true
  first : s.first g = true
  turn : s.turn g = some path
  fetch : ∃ y, s.fetch g path = .words (withOp op w) y u ∧ (bit (withOp op w) 63 = true → y = x.toNat)

/-- A row of the opcode table completes: where the gang issues and `ok` holds of the instruction and the state, exec answers the
issue's bookkeeping (`finish`, which IssueBookkeeping describes) on the effect `t`, with the lanes that jump and whether it is a switch point. -/
def Completes (row : Nat → DWord → DWord → Instr) (op : Nat) (ok : Ctx → State → Prop) (t : Ctx → State → State)
    (jumps : Ctx → List (Nat × Nat) := fun _ => []) (sw : Bool := false) : Prop :=
  ∀ g w x s u path, Issues op g w x s u path →
    let c := u.ctx g (withOp op w) x.toNat path
    ok c u → exec (row g w x) s = .next (finish c (s.readyLanes g) u (.ok (t c u) (jumps c) sw))

/-- An ALU row: its opcode, the sources it uses, and the result of a lane from the context, the width and the sources. -/
structure AluRow where
  row : Nat → DWord → DWord → Instr
  op : Nat
  sp : RSpec := {}
  f : Ctx → Nat → Nat → Nat → Nat → Nat

/-- The destination of a format R instruction. -/
def Machine.Ctx.dstR (c : Ctx) (sp : RSpec) : Opd := { kind := b2n (bit c.w 5), idx := c.f 49 42, n := if sp.d = 2 then c.wide else 1 }

/-- The checks of R107 and R108 pass, and no operand waits for a load. -/
def AluRow.ok (r : AluRow) (c : Ctx) (_ : State) : Prop :=
  c.check (c.rBad r.sp c.wide) (c.srcs r.sp c.wide) [c.dstR r.sp] = none

/-- The results of the active lanes lie in the destination (R97). -/
def AluRow.effect (r : AluRow) (c : Ctx) (s : State) : State :=
  s.updGang c.g fun y => y.setDst c.lanes (c.dstR r.sp) fun l =>
    r.f c (32 * c.wide) ((c.srcA r.sp.a c.wide).val c l) ((c.srcB r.sp.b c.wide).val c l) ((c.srcC r.sp.c c.wide).val c l)

def AluRow.completes (r : AluRow) : Prop := Completes r.row r.op r.ok r.effect

/-- The integer rows that write registers, with R109's and R518's results written out. -/
def integerRows : List AluRow := [
  { row := .iadd, op := 0x00, f := fun _ n a b _ => (a + b) % 2 ^ n },
  { row := .isub, op := 0x01, f := fun _ n a b _ => twos n ((a : Int) - (b : Int)) },
  { row := .imul, op := 0x02, f := fun _ n a b _ => a * b % 2 ^ n },
  { row := .imulhiU, op := 0x03, f := fun _ n a b _ => a * b / 2 ^ n },
  { row := .imulhiS, op := 0x04, f := fun _ n a b _ => twos n (sgn n a * sgn n b / (2 ^ n : Nat)) },
  { row := .imad, op := 0x05, sp := { c := 2 }, f := fun _ n a b c => (a * b + c) % 2 ^ n },
  { row := .idivU, op := 0x06, f := fun _ n a b _ => if b = 0 then 2 ^ n - 1 else a / b },
  { row := .idivS, op := 0x07, f := fun _ n a b _ => if b = 0 then twos n (-1) else twos n ((sgn n a).tdiv (sgn n b)) },
  { row := .iremU, op := 0x08, f := fun _ _ a b _ => if b = 0 then a else a % b },
  { row := .iremS, op := 0x09, f := fun _ n a b _ => if b = 0 then a else twos n ((sgn n a).tmod (sgn n b)) },
  { row := .iminU, op := 0x0A, f := fun _ _ a b _ => if a ≤ b then a else b },
  { row := .iminS, op := 0x0B, f := fun _ n a b _ => if sgn n a ≤ sgn n b then a else b },
  { row := .imaxU, op := 0x0C, f := fun _ _ a b _ => if a ≤ b then b else a },
  { row := .imaxS, op := 0x0D, f := fun _ n a b _ => if sgn n a ≤ sgn n b then b else a },
  { row := .iabs, op := 0x0E, sp := { b := 0 }, f := fun _ n a _ _ => twos n (if sgn n a < 0 then -sgn n a else sgn n a) },
  { row := .ineg, op := 0x0F, sp := { b := 0 }, f := fun _ n a _ _ => twos n (-(a : Int)) },
  { row := .and, op := 0x10, f := fun _ _ a b _ => a &&& b },
  { row := .or, op := 0x11, f := fun _ _ a b _ => a ||| b },
  { row := .xor, op := 0x12, f := fun _ _ a b _ => a ^^^ b },
  { row := .not, op := 0x13, sp := { b := 0 }, f := fun _ n a _ _ => 2 ^ n - 1 - a },
  { row := .shl, op := 0x14, sp := { b := 1 }, f := fun _ n a b _ => if b ≥ n then 0 else a * 2 ^ b % 2 ^ n },
  { row := .shr, op := 0x15, sp := { b := 1 }, f := fun _ n a b _ => if b ≥ n then 0 else a / 2 ^ b },
  { row := .sar, op := 0x16, sp := { b := 1 }, f := fun _ n a b _ =>
      if b ≥ n then (if sgn n a < 0 then 2 ^ n - 1 else 0) else twos n (sgn n a / (2 ^ b : Nat)) },
  { row := .popc, op := 0x17, sp := { b := 0, d := 1 }, f := fun _ n a _ _ => ((List.range n).filter a.testBit).length },
  { row := .clz, op := 0x18, sp := { b := 0, d := 1 }, f := fun _ n a _ _ => if a % 2 ^ n = 0 then n else n - 1 - Nat.log2 (a % 2 ^ n) },
  { row := .brev, op := 0x19, sp := { b := 0 }, f := fun _ n a _ _ => (List.range n).foldl (fun v i => v * 2 + a / 2 ^ i % 2) 0 },
  { row := .mov, op := 0x1A, sp := { b := 0 }, f := fun _ _ a _ _ => a }]

/-- The floating-point rows (R519); `fadd` and the others are the exact result rounded once under RM (R162, R163). -/
def floatRows : List AluRow :=
  let t : RSpec := { types := [0] }
  let t1 : RSpec := { types := [0], b := 0 }
  [ { row := .fadd, op := 0x30, sp := { t with rm := 1 }, f := fun c _ a b _ => fp32.ofVal c.rm 0 (addVal (fval a) (fval b)) },
    { row := .fsub, op := 0x31, sp := { t with rm := 1 }, f := fun c _ a b _ => fp32.ofVal c.rm 0 (addVal (fval a) (negVal (fval b))) },
    { row := .fmul, op := 0x32, sp := { t with rm := 1 }, f := fun c _ a b _ => fp32.ofVal c.rm 0 (mulVal (fval a) (fval b)) },
    { row := .ffma, op := 0x33, sp := { t with rm := 1, c := 2 }, f := fun c _ a b d => fp32.ofVal c.rm 0 (addVal (mulVal (fval a) (fval b)) (fval d)) },
    { row := .fdiv, op := 0x34, sp := { t with rm := 1 }, f := fun c _ a b _ => fp32.ofVal c.rm 0 (divVal (fval a) (fval b)) },
    { row := .fsqrt, op := 0x35, sp := { t1 with rm := 1 }, f := fun c _ a _ _ => fp32.ofVal c.rm 0 (sqrtVal (fval a)) },
    { row := .fmin, op := 0x36, sp := t, f := fun _ _ a b _ => fmin a b },
    { row := .fmax, op := 0x37, sp := t, f := fun _ _ a b _ => fmax a b },
    { row := .fabs, op := 0x38, sp := t1, f := fun _ _ a _ _ => if isNan a then fp32.nan else a % 2 ^ 31 },
    { row := .fneg, op := 0x39, sp := t1, f := fun _ _ a _ _ => if isNan a then fp32.nan else a ^^^ 2 ^ 31 },
    { row := .frcpApprox, op := 0x3A, sp := t1, f := fun _ _ a _ _ => fapprox 0 a },
    { row := .frsqApprox, op := 0x3B, sp := t1, f := fun _ _ a _ _ => fapprox 1 a },
    { row := .fex2Approx, op := 0x3C, sp := t1, f := fun _ _ a _ _ => fapprox 2 a },
    { row := .flg2Approx, op := 0x3D, sp := t1, f := fun _ _ a _ _ => fapprox 3 a },
    { row := .fsinApprox, op := 0x3E, sp := t1, f := fun _ _ a _ _ => fapprox 4 a },
    { row := .fcosApprox, op := 0x3F, sp := t1, f := fun _ _ a _ _ => fapprox 5 a },
    { row := .ftanhApprox, op := 0x40, sp := t1, f := fun _ _ a _ _ => fapprox 6 a }]

/-- A row that writes one bit of a predicate in each active lane. -/
structure PredRow where
  row : Nat → DWord → DWord → Instr
  op : Nat
  sp : RSpec := { d := 0 }
  f : Nat → Nat → Nat → Nat → Bool

def PredRow.ok (r : PredRow) (c : Ctx) (_ : State) : Prop := c.check (c.rBad r.sp c.wide) (c.srcs r.sp c.wide) [] = none

def PredRow.effect (r : PredRow) (c : Ctx) (s : State) : State :=
  s.updGang c.g fun y => c.lanes.foldl (init := y) fun y l =>
    y.setPred (c.f 44 42) l (r.f (32 * c.wide) l ((c.srcA r.sp.a c.wide).val c l) ((c.srcB r.sp.b c.wide).val c l))

def PredRow.completes (r : PredRow) : Prop := Completes r.row r.op r.ok r.effect

/-- The comparisons and PWR (R518, R519). -/
def predRows : List PredRow :=
  let t : RSpec := { types := [0], d := 0 }
  let num := fun (a b : Nat) => !isNan a && !isNan b
  [ { row := .pwr, op := 0x20, sp := { b := 0, types := [0], d := 0 }, f := fun _ l a _ => bit a l },
    { row := .icmpEq, op := 0x21, f := fun _ _ a b => a == b },
    { row := .icmpNe, op := 0x22, f := fun _ _ a b => a != b },
    { row := .icmpLtU, op := 0x23, f := fun _ _ a b => decide (a < b) },
    { row := .icmpGeU, op := 0x24, f := fun _ _ a b => decide (b ≤ a) },
    { row := .icmpLtS, op := 0x25, f := fun n _ a b => decide (sgn n a < sgn n b) },
    { row := .icmpGeS, op := 0x26, f := fun n _ a b => decide (sgn n b ≤ sgn n a) },
    { row := .fcmpEq, op := 0x41, sp := t, f := fun _ _ a b => num a b && fnum a == fnum b },
    { row := .fcmpNe, op := 0x42, sp := t, f := fun _ _ a b => !(num a b && fnum a == fnum b) },
    { row := .fcmpLt, op := 0x43, sp := t, f := fun _ _ a b => num a b && decide (fnum a < fnum b) },
    { row := .fcmpLe, op := 0x44, sp := t, f := fun _ _ a b => num a b && decide (fnum a ≤ fnum b) },
    { row := .fcmpGt, op := 0x45, sp := t, f := fun _ _ a b => num a b && decide (fnum b < fnum a) },
    { row := .fcmpGe, op := 0x46, sp := t, f := fun _ _ a b => num a b && decide (fnum b ≤ fnum a) },
    { row := .fcmpUnord, op := 0x47, sp := t, f := fun _ _ a b => !num a b },
    { row := .fcmpOrd, op := 0x48, sp := t, f := fun _ _ a b => num a b }]

/-- A row that traps: exec answers the state in which the gang's trap is recorded and nothing else has changed (R81). -/
def Traps (row : Nat → DWord → DWord → Instr) (op : Nat) (ok : Ctx → State → Prop) (code : Nat) (extra : Ctx → List Byte) : Prop :=
  ∀ g w x s u path, Issues op g w x s u path →
    let c := u.ctx g (withOp op w) x.toNat path
    ok c u → exec (row g w x) s = .next (u.updGang g fun y =>
      { y with trap := some { code := code, pc := c.pc, mask := path, extra := extra c } })

/-- The places that the lanes of a memory instruction reach: no trap, no fence or acquire to wait for, and no access of a control page that
must wait for the thread's buffered stores (R108, R119, R121, R184). -/
structure Reaches (c : Ctx) (s : State) (u : MemUse) (order : Bool) (off : Int) (ts : List (Nat × Nat × Loc)) : Prop where
  free : c.heldUp = false
  places : s.targets c u order off = .ok ts
  some : ts ≠ []
  ctrl : s.ctrlWaits c.g ts = false

/-- The state from which LD and LD.ACQUIRE read: the acquire invalidates the L1, and the load has its number. -/
def loadFrom (acq : Bool) (c : Ctx) (s : State) : State :=
  { (if acq && c.space != 0 then s.clearL1 (coreOf c.g) else s) with uid := s.uid + 1 }

/-- A load in flight. -/
def loadOf (kind : LoadKind) (id size : Nat) (sx dev : Bool) (c : Ctx) (s : State) (ls : List LaneLoad) : PendLoad :=
  { id := id, kind := kind, dst := c.f 49 42, size := size, sx := sx, lanes := ls, vals := [], stamp := s.stampFor c, devScope := dev }

/-- A load row completes: one load in flight holds what each active lane read; `pre` is what goes before the issue, `after` what follows it. The
stream detector of the core sees the first lane's address of a read of device memory (R232). -/
def LoadCompletes (acq : Bool) (op : Nat) (row : Nat → DWord → DWord → List Flip → Instr) (pre : List Flip → State → State)
    (after : State → State) : Prop :=
  ∀ (g : Nat) (w x : DWord) (fl : List Flip) (s u : State) (path : Nat), Issues op g w x (pre fl s) u path →
    let c := u.ctx g (withOp op w) x.toNat path
    c.check (c.loadBad acq) [c.base] [c.dataOpd] = none →
    ∀ ts, Reaches c u .load acq c.offset ts →
    ∀ ls t, State.loadLanes regIo c { l1 := !acq, alloc := c.f 25 24 == 0 } u.uid ts (loadFrom acq c u) = some (ls, t) →
      let v := t.wsWords c ts
      let first := ts.headD (0, 0, .lost)
      let v := if !acq && (match first.2.2 with | .dev _ => true | _ => false) then
        v.train (tlbCore (coreOf g)) (v.req c.x.k.part c.x.k.tally 0) c.x.k.stream c.x.k.slot first.2.1 else v
      exec (row g w x fl) s = .next (after (finish c ((pre fl s).readyLanes g) u (.ok (v.addLoad c
        (loadOf (if acq then .acquire else .plain) u.uid c.size (bit c.w 26) (c.space != 0) c v ls)) [] false)))

/-- The binding that a conveyor instruction finds, and the passing of its checks (R107, R124). -/
structure CvOk (pop try_ : Bool) (c : Ctx) (s : State) (b : CvBind) : Prop where
  bound : Tab.get none c.x.k.binds (c.f 29 26) = some b
  dir : b.pop = pop
  lanes : c.lanes ≠ []
  check : c.check (c.sBad (fD + fID + if try_ then fPD else 0))
    (if pop then [] else [{ kind := 0, idx := c.f 49 42, n := 2 ^ b.width }])
    (if pop then [{ kind := 0, idx := c.f 49 42, n := 2 ^ b.width }] else []) = none

/-- R61, R72: a gang that BARRIER_DEADLOCK traps, with its case. -/
def deadlocked (case g : Nat) (s t : State) : Prop :=
  ∃ p, (t.gang g).trap = some p ∧ p.code = 0x0B ∧ p.extra = extra16 (case + (s.gang g).barMask.getD 0 * two32) 0 ∧
    (t.gang g).regs = (s.gang g).regs ∧ (t.gang g).lanes = (s.gang g).lanes

/-- An operation of function q on the gang it has selected passes the checks that all of them share (R20, R85, R87, R88). -/
structure DbgAt (q g : Nat) (s : State) : Prop where
  hears : s.hears q = true
  released : s.rel 1 = true
  may : (q = 32 ∧ s.dpt.unlock ≠ 0) ∨ (q ≠ 32 ∧ s.mayGlobal q = true)
  sel : (s.fn q).dbg.gangSel % 65536 = g
  range : g ≤ 36863
  idle : (s.gang g).live = true → (s.gang g).mode ≠ .halting ∧ (s.gang g).mode ≠ .stepping ∧ s.dbgMay q (s.gang g).k.part = true

/-- The row answers a state with this RESULT in function q's copy, in which only gang g and the debugger's registers may have changed (R85, R89). -/
def DbgAnswers (c : Instr) (q g result : Nat) (s : State) (x : Gang) (data : Option Nat := none) : Prop :=
  ∃ t, exec c s = .next t ∧ (t.fn q).dbg.result = result ∧ t.gang g = x ∧ (∀ h, h ≠ g → t.gang h = s.gang h) ∧
    (t.fn q).dbg.regData = data.getD (s.fn q).dbg.regData ∧ t.mem = s.mem ∧ t.subs = s.subs ∧ t.parts = s.parts ∧ t.cores = s.cores ∧ t.rst = s.rst

/-- A counter of a fabric port, one of whose fields every read gives anew (R349: log entry 76). -/
def portCounters (off : Nat) : Prop := off / 2 ^ 20 = 7 ∧ 0x1000 ≤ off % 2 ^ 20

/-- RW registers of a global block: offset, bytes, and what a write leaves (R45, R340). -/
def globalRegs : List (Nat × Nat × (Nat → Nat)) := [
  (0x0100000, 8, fun v => v / 64 * 64), (0x0100008, 4, fun v => v), (0x0600018, 8, fun v => v % 2 ^ 34 + v / 2 ^ 63 * 2 ^ 63),
  (0x0600020, 4, fun v => v), (0x0601000, 4, fun v => v % 2 ^ 17), (0x0601004, 4, fun v => v % 512)]

/-- RW registers of a partition: the shadows of its groups, its address-space slots, FLT_LAMP_FROM (R59, R258, R282, R319, R454, R493). -/
def partRegs : List (Nat × Nat × (Nat → Nat)) :=
  let base := fun v => v / 4096 * 4096
  let size := fun v => v % 2 ^ 17
  ((List.range 9).flatMap fun n => [(0x0200000 + 0x80 * n, 8, base), (0x0200008 + 0x80 * n, 4, size)]) ++
  ((List.range 256).map fun a => (0x0301000 + 8 * a, 8, fun v => v / 2 ^ 63 * 2 ^ 63 + v % 2 ^ 56 / 2 ^ 19 * 2 ^ 19)) ++
  ((List.range 256).flatMap fun i => [(0x0501000 + 16 * i, 8, fun v => v / 64 * 64), (0x0501008 + 16 * i, 4, fun v => v % 16)]) ++
  [(0x0A00000, 8, base), (0x0A00008, 4, size), (0x0D00000, 8, base), (0x0D00008, 4, size), (0x0D00108, 4, fun v => v)]

/-- A register write comes to the state t, and then the drivers' actions on copy engines that wait are taken (R251). -/
def Writes (q off size : Nat) (v : DWord) (s t : State) : Prop := exec (.registerWrite q off size v) s = .next t.engineActions

/-- A write by function q reaches global block b, and q is a function that may write global blocks (R20). -/
structure GlobalAt (q b : Nat) (s : State) : Prop where
  hears : s.hears q = true
  released : s.rel (blockDomain b) = true
  may : s.mayGlobal q = true

/-- A write by function q reaches per-partition block b while q's view shows partition p (R20, R21). -/
structure PartAt (q b p : Nat) (s : State) : Prop where
  hears : s.hears q = true
  released : s.rel (blockDomain b) = true
  view : (s.who q).view = some p

/-- What a Survey operation that ends without an apply leaves: the applied image, the stored images and the retired pages (R42, R46). -/
def surveyUntouched (s t : State) : Prop :=
  t.srv.applied = s.srv.applied ∧ t.flash = s.flash ∧ t.mem = s.mem ∧ t.srv.cand = none ∧ t.srv.op = 0

/-- The bytes of a command's slots: the row's opcode before the operand's bytes, up to the end of its last slot (R291). -/
def cmdBytes (op : Nat) (c : List Byte) : List Byte :=
  let b := BitVec.ofNat 8 op :: c.drop 1
  padTo (64 * lenOf b) b

/-- Ring n of partition p starts a command as its command number k, in the state u: it may start (R288, R289), its slots are readable
(R294), and its header and reserved bytes are as the opcode asks (R291 to R293). -/
structure Begins (op flags min : Nat) (used : List (Nat × Nat)) (p n : Nat) (c : List Byte) (s : State) (b : List Byte) (k : Nat) (u : State) :
    Prop where
  bytes : b = cmdBytes op c
  can : s.canStart p n b = true
  slots : (s.slotCode p n b).1 = 0
  header : cmdBad b flags min used = false
  start : s.begin p n b = (k, u)

/-- Command k of partition p waits for nothing more, with a code of R294. -/
def Ended (t : State) (p k code : Nat) : Prop := (t.cmd p k).wait = .done ∧ (t.cmd p k).code = code

/-- A row that starts a ring command: its opcode, the flags and least LEN it may have, and its operand fields. -/
structure RingRow where
  row : Nat → Nat → List Byte → Instr
  op : Nat
  flags : Nat := 0
  min : Nat := 0
  used : List (Nat × Nat) := []

/-- The rows of R293 but PLACE_DECLARE, whose fields its KIND chooses. -/
def ringRows : List RingRow := [
  { row := .launch, op := 0x01, flags := 1, used := [(16, 41), (64, 64)] },
  { row := .graphLaunch, op := 0x02, flags := 1, used := [(16, 2), (20, 4)] },
  { row := .graphPatch, op := 0x03, used := [(16, 14), (32, 8)] },
  { row := .copy, op := 0x04, flags := 1, used := [(16, 9), (28, 4)] },
  { row := .copyInline, op := 0x05, flags := 1, used := [(16, 11), (32, 960)] },
  { row := .fenceSignal, op := 0x06, flags := 2, used := [(16, 9), (32, 8)] },
  { row := .fenceWait, op := 0x07, used := [(16, 9), (32, 8)] },
  { row := .cond, op := 0x08, used := [(16, 12), (32, 16)] },
  { row := .loop, op := 0x09, used := [(16, 32)] },
  { row := .ringCall, op := 0x0A, used := [(16, 9), (28, 4)] },
  { row := .timeWait, op := 0x0B, used := [(16, 8)] },
  { row := .gateWait, op := 0x0C, used := [(16, 2)] },
  { row := .tallyOpen, op := 0x0D },
  { row := .tallyClose, op := 0x0E },
  { row := .complete, op := 0x0F, flags := 2, used := [(16, 10), (28, 4)] },
  { row := .xltInval, op := 0x10, used := [(16, 2), (24, 16)] },
  { row := .redStep, op := 0x15, used := [(16, 48)] },
  { row := .lampCheck, op := 0x16, used := [(16, 9)] }]

/-- The operand of a placement declaration with the row's KIND in its body (R263). -/
def placeArg (kind : Nat) (c : List Byte) : List Byte :=
  let c := padTo (max 64 c.length) c
  c.take 16 ++ [BitVec.ofNat 8 kind] ++ c.drop 17

/-- The operand of a reduction command with JFLAGS.LEAVE as its row has it (R378). -/
def joinArg (leave : Nat) (c : List Byte) : List Byte :=
  let d := padTo (max 64 c.length) c
  d.take 31 ++ [BitVec.ofNat 8 (u8 d 31 - u8 d 31 % 2 + leave)] ++ d.drop 32

/-- RED_JOIN and LEAVE, and the rows of PLACE_DECLARE with their KINDs, and PLACE_QUERY and PLACE_PIN: the row, its opcode, and the command's bytes from its operand. -/
def placeRows : List ((Nat → Nat → List Byte → Instr) × Nat × (List Byte → List Byte)) := [
  (.tensor, 0x11, placeArg 1), (.release, 0x11, placeArg 2), (.stage, 0x11, placeArg 3), (.conveyor, 0x11, placeArg 4),
  (.regionLoad, 0x11, placeArg 5), (.seal, 0x11, placeArg 6), (.regionMap, 0x11, placeArg 7), (.placeQuery, 0x12, id), (.placePin, 0x13, id),
  (.redJoin, 0x14, joinArg 0), (.leave, 0x14, joinArg 1)]

/-- The well-formed body of a TENSOR (R264). -/
def tensorOk (d : List Byte) : Prop :=
  u16 d 2 ≠ 0 ∧ u8 d 4 ≤ 15 ∧ u8 d 5 ≤ 2 ∧ u8 d 6 < 64 ∧ u8 d 7 ≤ 8 ∧ u64 d 8 % 65536 = 0 ∧ u64 d 16 % 65536 = 0 ∧ u64 d 8 < 2 ^ 55 ∧ u64 d 8 + u64 d 16 ≤ 2 ^ 55 ∧
  u8 d 24 ≤ 1 ∧ (u8 d 25 ≤ 63 ∨ u8 d 25 = 0xFF) ∧ bodyZero d [(0, 26)] = true

/-- A flit of an attempt in progress on job slot i (R382). -/
structure RedOf (m : RedMsg) (i : Nat) (s : State) : Prop where
  released : s.rel 6 = true
  id : s.devId ≠ none
  slot : s.jobSlot m.job = some i
  state : (s.job i).state = .running ∨ (s.job i).state = .deciding
  step : (s.job i).step = m.stp
  period : (s.job i).at_.period = m.period

/-- An attempt ends at this rank with a code (R390): OUTCOME's word, the RED_STEP's code, and the job is JOINED again. -/
def AttemptEnds (c : Instr) (i code late : Nat) (s : State) : Prop :=
  ∃ (t u : State), exec c s = .next t ∧ u.job i = s.job i ∧ t = u.jobEnd i code late ∧
    (t.job i).state = .joined ∧ (t.job i).at_.code = code ∧ (t.job i).at_.late = late ∧
    (t.job i).at_.whole = if code = 1 then some (s.job i).step else (s.job i).at_.whole

/-- A port that leaves for HOLD (R344, R349, R365): its neighbour, its queues and its replay buffer are forgotten; leaving UP also counts the frames of the replay buffer that were
not acknowledged (at most as many as `lost` says), is a change of the device's link state, and sends its queued routed flits again by the routes of then. -/
def FallsTo (c : Instr) (port cause : Nat) (lost : Option Nat) (s : State) : Prop :=
  let x := s.fabPort port
  let n := min x.unacked.length (lost.getD x.unacked.length)
  let v := s.updFabPort port fun x => { x with
    state := .hold, cause := cause, width := 0, rtt := 0, rate := 0, nbrSerial := 0, nbrId := none, nbrPort := 0, hellos := 0
    echo := 0, lastTx := 0, downs := min (x.downs + 1) 0xFFFF
    queue := [], spent := [], lastClass := 3, lastIn := [], sq := 0, unacked := [] }
  (x.state ≠ .up → exec c s = .next v) ∧
  (x.state = .up → exec c s = .next ((x.queue.filter fun w => routedType w.flit.type).foldl (fun u w => u.routeFlit w.input w.grant w.flit)
    ((v.updFab fun x => { x with link := min (x.link + n) 0xFFFF }).timLost port).ownChange))

/-- One more flit stands at a port (R348): every flit that stood there is sent or still queued, and so is it; a port that is not UP (HELLOs in DISCOVER), and an empty output that
holds a credit of its class, has sent it. -/
def Joins (f : Flit) (x y : FabPort) : Prop :=
  y.state = x.state ∧ (y.out ++ y.queue.map (·.flit)).Perm (x.out ++ x.queue.map (·.flit) ++ [f]) ∧
  (x.state ≠ .up ∨ (x.queue = [] ∧ x.may (flitClass f.type) = true) → y.out = x.out ++ [f])

/-- A port has one more flit of a type to send (R350). -/
def Sent (port type : Nat) (s t : State) : Prop := ∃ f, Joins f (s.fabPort port) (t.fabPort port) ∧ f.type = type ∧ f.hops = 31

/-- The mailbox of function q takes a value, and nothing else of the functions changes (R427). -/
def MailTo (c : Instr) (q : Nat) (s : State) (m : FnMail) : Prop :=
  ∃ t, exec c s = .next t ∧ (t.fn q).mail = m ∧ (∀ h, h ≠ q → (t.fn h).mail = (s.fn h).mail) ∧ t.flash = s.flash ∧ t.mem = s.mem ∧ t.rst = s.rst

/-- What a full reset leaves (R431, R456, R461, R466, R474, R511, R512): flash, the pins and the running command numbers stay; everything else is as at power-on but the cause, and, unless the power-on
detector caused it, the cause store, a trip and the TAP. D0 is released at once when both pins are high. The end of an unlock is on the Pit Log, unless power is lost. -/
def resetBy (cause : Nat) (s : State) : State :=
  let locks := cause ≠ 1 ∧ (s.dpt.unlock ≠ 0 ∨ s.dpt.unlockCrew = true)
  { State.reset with
    clk := s.clk, free := s.free, uid := s.uid, pending := s.pending, dpt := { nonces := s.dpt.nonces }
    flash := if locks then (s.pitWrite (s.pitRec 8 2 (unlockBody 0 false (s.flash.counters.getD 3 (0, 0)).1))).flash else s.flash
    ports := Tab.adjust {} (fun _ x => { perst := x.perst }) s.ports
    rst := {
      pwrGood := s.rst.pwrGood, sysRstN := s.rst.sysRstN, released := if s.rst.pwrGood && s.rst.sysRstN then 1 else 0, cause := cause, t0 := s.clk, relAt := s.clk
      causeStore := if cause = 1 then none else s.rst.causeStore
      tripped := cause != 1 && s.rst.tripped, extest := cause != 1 && s.rst.extest } }

/-- R163, R518, R519: comparisons and PWR write the predicate's bit of each active lane. -/
def Claims.PredicateRowsComplete : Prop := ∀ r ∈ predRows, r.completes

/-- R518, R520: SHFL, LANEID, MDESC.SET, MDESC.GET, PRD, and the conversions. -/
def Claims.MoveRowsComplete : Prop :=
  Completes .shfl 0x1B
    (fun c _ =>
      let sp : RSpec := { kinds := [0] }
      let a := c.srcA 2 c.wide
      let b := c.srcB 2 c.wide
      ({ c with act := 0 } : Ctx).check (c.rBad sp c.wide) [a, b] [c.dstR sp] = none ∧
      b.awaited c = false ∧ (c.dstR sp).awaited c = false ∧
      ∀ l ∈ c.lanes, a.awaited { c with act := 2 ^ (b.val c l % 32) } = false ∧ b.poison c l = none ∧ a.poison c (b.val c l % 32) = none)
    (fun c s => s.updGang c.g fun y => y.setDst c.lanes (c.dstR {}) fun l =>
      (c.srcA 2 c.wide).val c ((c.srcB 2 c.wide).val c l % 32)) ∧
  Completes .laneid 0x1C
    (fun c _ => c.check (c.rBad { a := 0, b := 0, types := [0], d := 1 } 1) [] [c.dstR { d := 1 }] = none)
    (fun c s => s.updGang c.g fun y => y.setDst c.lanes (c.dstR { d := 1 }) fun l => l) ∧
  Completes .mdescSet 0x1D
    (fun c _ => c.check (c.rBad { b := 0, kinds := [1, 2], types := [1], d := 0 } 2) [c.srcA 2 2] [] = none ∧ c.lanes ≠ [])
    (fun c s => s.updGang c.g fun y => { y with
      mdesc := Tab.set 0 y.mdesc (c.f 44 42) (BitVec.ofNat 64 ((c.srcA 2 2).val c (c.lanes.headD 0))) }) ∧
  Completes .mdescGet 0x1E
    (fun c _ => c.check (c.rBad { b := 0, kinds := [0], types := [1] } 2 || c.eightBad) []
      [{ kind := b2n (bit c.w 5), idx := c.f 49 42, n := 2 }] = none)
    (fun c s => s.updGang c.g fun y =>
      y.setDst c.lanes { kind := b2n (bit c.w 5), idx := c.f 49 42, n := 2 } fun _ => (Tab.get 0 y.mdesc (c.f 36 34)).toNat) ∧
  Completes .prd 0x1F
    (fun c _ => c.check (c.rBad { b := 0, kinds := [0], types := [0], d := 1 } 1 || c.eightBad) [] [c.dstR { d := 1 }] = none)
    (fun c s => s.updGang c.g fun y => y.setDst c.lanes (c.dstR { d := 1 }) fun _ => (Tab.get 0 y.preds (c.f 36 34)).toNat) ∧
  (∀ e ∈ ([(Instr.cvtTo, 0x50, cvtTo), (.cvtFrom, 0x51, cvtFrom)] :
      List ((Nat → DWord → DWord → Instr) × Nat × (Nat → Nat → Nat → Nat → Nat))),
    Completes e.1 e.2.1
      (fun c _ =>
        let sp : RSpec := { b := 0, types := [1, 2, 3, 4, 5, 6, 7, 8, 9], rm := 2 }
        c.check (c.rBad sp 1) [c.srcA 2 1] [c.dstR { d := 1 }] = none)
      (fun c s => s.updGang c.g fun y =>
        let y := if c.rm = 2 then c.lanes.foldl (fun y l => y.updLane l fun z => { z with rng := lfsr32 z.rng }) y else y
        y.setDst c.lanes (c.dstR { d := 1 }) fun l => e.2.2 c.ty c.rm (y.lane l).rng ((c.srcA 2 1).val c l)))

/-- R110: branches, calls, returns, EXIT and YIELD. -/
def Claims.ControlRowsComplete : Prop :=
  let push := fun (c : Ctx) (s : State) => s.updGang c.g fun y => c.lanes.foldl (init := y) fun y l =>
    y.updLane l fun z => { z with stack := (c.pc + 8) % two64 :: z.stack }
  let disp := fun (c : Ctx) => c.lanes.map fun l => (l, twos 64 ((c.pc : Int) + 8 * sgn 32 (c.f 31 0)))
  let reg := fun (c : Ctx) => c.lanes.map fun l => (l, c.target.val c l)
  let aligned := fun (c : Ctx) => ∀ l ∈ c.lanes, c.target.val c l % 8 = 0
  let room := fun (c : Ctx) => ∀ l ∈ c.lanes, (c.x.lane l).stack.length < 16
  Completes .bra 0x60 (fun c _ => c.check (c.bBad false true) [] [] = none) (fun _ s => s) disp ∧
  Completes .brx 0x61 (fun c _ => c.check (c.bBad true false) [c.target] [] = none ∧ aligned c) (fun _ s => s) reg ∧
  Completes .call 0x62 (fun c _ => c.check (c.bBad false true) [] [] = none ∧ room c) push disp ∧
  Completes .callx 0x63 (fun c _ => c.check (c.bBad true false) [c.target] [] = none ∧ aligned c ∧ room c) push reg ∧
  Completes .ret 0x64
    (fun c _ => c.check (c.bBad false false) [] [] = none ∧ ∀ l ∈ c.lanes, (c.x.lane l).stack ≠ [])
    (fun c s => s.updGang c.g fun y => c.lanes.foldl (fun y l => y.updLane l fun z => { z with stack := z.stack.drop 1 }) y)
    (fun c => c.lanes.map fun l => (l, (c.x.lane l).stack.headD 0)) ∧
  Completes .exit 0x65
    (fun c _ => c.check (c.bBad false false) [] [] = none ∧
      ({ c.x with exited := c.x.exited ||| c.act } : Gang).done = false ∧ ({ c.x with exited := c.x.exited ||| c.act } : Gang).allAt = none)
    (fun c s => s.updGang c.g fun y => { y with exited := y.exited ||| c.act }) (fun _ => []) true ∧
  Completes .exit 0x65
    (fun c _ => c.check (c.bBad false false) [] [] = none ∧ ({ c.x with exited := c.x.exited ||| c.act } : Gang).done = true)
    (fun c s => (List.range 16).foldl (init := s.updGang c.g fun y => { y with exited := y.exited ||| c.act }) fun t i =>
      if ((t.core (coreOf c.g)).bar i).members.contains c.g then t.updBar (coreOf c.g) i fun b => b.leave c.g else t) (fun _ => []) true ∧
  Completes .yield 0x66 (fun c _ => c.check (c.bBad false false) [] [] = none) (fun _ s => s) (fun _ => []) true

/-- R81, R82, R101, R110, R521: TRAP, BRK, an undefined opcode and a reserved field of a register row record their trap, and change no register, memory byte or barrier;
so does a fetch that meets a trap (R108, R245); a gang with a recorded trap, or that its sub-core does not take, issues nothing. -/
def Claims.TrapRowsTrap : Prop :=
  (∀ e ∈ ([(Instr.trap, 0x67, 0x10), (.brk, 0x68, 0x11)] : List ((Nat → DWord → DWord → Instr) × Nat × Nat)),
    Traps e.1 e.2.1 (fun c _ => c.check (c.bBad false true) [] [] = none ∧ c.act ≠ 0) e.2.2 (fun c => extra16 (c.f 31 0) 0)) ∧
  (∀ g w x s u path, opDefined (fld w 57 50) = false → Issues (fld w 57 50) g w x s u path →
    exec (.illegalOpcode g w x) s = .next (u.updGang g fun y => { y with trap := some {
      code := 0x01, pc := (u.ctx g w.toNat x.toNat path).pc, mask := path
      extra := leBytes 8 w.toNat ++ leBytes 8 (if bit w.toNat 63 then x.toNat else 0) } })) ∧
  (∀ r ∈ integerRows ++ floatRows, Traps r.row r.op (fun c _ => c.guardBad = true ∨ c.rBad r.sp c.wide = true) 0x02 Ctx.words) ∧
  (∀ r ∈ predRows, Traps r.row r.op (fun c _ => c.guardBad = true ∨ c.rBad r.sp c.wide = true) 0x02 Ctx.words) ∧
  (∀ r ∈ integerRows ++ floatRows, ∀ g w x s u path code extra,
    s.alive g = true → s.first g = true → s.turn g = some path → s.fetch g path = .trap code extra u →
    exec (r.row g w x) s = .next (u.updGang g fun y => { y with trap := some {
      code := code, pc := (u.gang g).pcOf path, mask := path, extra := extra } })) ∧
  (∀ r ∈ integerRows ++ floatRows, ∀ g w x s, s.alive g = false ∨ s.first g = false → exec (r.row g w x) s = .next s)

/-- R66, R81, R315: what `finish` does after an effect that leaves the gang as it was but for its registers: the active lanes that jump go to
their targets and the path's other lanes to the next instruction; the instruction counters of the ring and of the core rise by 1. -/
def Claims.IssueBookkeeping : Prop :=
  ∀ (c : Ctx) (ready : List Nat) (s t : State) (jumps : List (Nat × Nat)) (sw : Bool),
    (∃ l < 32, bit (t.gang c.g).exited l = false) → (t.gang c.g).live = true →
    let u := finish c ready s (.ok t jumps sw)
    (∀ l < 32, bit c.path l = true →
      ((u.gang c.g).lane l).pc = ((jumps.find? (·.1 == l)).map (·.2)).getD ((c.pc + if c.hasExt then 16 else 8) % two64)) ∧
    (∀ l < 32, bit c.path l = false → ((u.gang c.g).lane l).pc = ((t.gang c.g).lane l).pc) ∧
    (u.gang c.g).regs = (t.gang c.g).regs ∧ (u.gang c.g).uregs = (t.gang c.g).uregs ∧
    (u.gang c.g).preds = (t.gang c.g).preds ∧ (u.gang c.g).mdesc = (t.gang c.g).mdesc ∧ (u.gang c.g).marks = (t.gang c.g).marks ∧
    (u.gang c.g).pend = (t.gang c.g).pend ∧ (u.gang c.g).exited = (t.gang c.g).exited ∧
    (u.core (coreOf c.g)).retired = (t.core (coreOf c.g)).retired + 1 ∧
    (u.ring c.x.k.part c.x.k.ring).instr = wrapAdd two64 (t.ring c.x.k.part c.x.k.ring).instr 1 ∧
    u.mem = t.mem ∧ u.subs = t.subs ∧ u.tim = t.tim ∧ u.rst = t.rst ∧ u.flash = t.flash ∧ u.ports = t.ports ∧ u.fns = t.fns ∧
    u.fab = t.fab ∧ u.jobs = t.jobs ∧ u.flt = t.flt ∧ u.clk = t.clk ∧ u.pending = t.pending ∧
    ∀ g, g ≠ c.g → (u.gang g).regs = (t.gang g).regs ∧ (u.gang g).uregs = (t.gang g).uregs ∧ (u.gang g).preds = (t.gang g).preds ∧
      (u.gang g).mdesc = (t.gang g).mdesc ∧ (u.gang g).marks = (t.gang g).marks ∧ (u.gang g).pend = (t.gang g).pend

/-- R112, R114, R119, R181, R182: LD and LD.ACQUIRE put one load in flight that holds what each active lane reads; the registers change only
when it returns. The errors that an LD brings lie in the arrays from then on (log entry 24); a control access of LD may let a stalled copy
engine go on. -/
def Claims.LoadRowsComplete : Prop :=
  LoadCompletes false 0x70 .ld (fun fl s => s.disturb fl) State.engineActions ∧
  LoadCompletes true 0x73 (fun g w x _ => .ldAcquire g w x) (fun _ s => s) id

/-- R74, R78, R112, R181, R184, R193: what one lane of a load reads: the bytes that the thread's buffered stores hold, where they hold all of
them, while a part of them makes it wait; else a line that the L1 holds, or the bytes at its place, once its channel is not held; a register
answers at once; a host access sends its request and waits; an unreachable place completes as poisoned. -/
def Claims.LoadLaneReads : Prop :=
  ∀ (io : RegIo) (c : Ctx) (m : LoadMode) (s : State) (id l va : Nat) (loc : Loc),
    let n := c.size
    let lane := fun (ready : Bool) (v : Nat) (bad : Bool) =>
      ({ lane := l, addr := va, loc := loc, ready := ready, data := v, poison := if bad then some va else none } : LaneLoad)
    (∀ d, forward (s.stores c.g l) loc n = .all d → s.loadLane io c m id (l, va, loc) = some (lane true (leVal d) false, s)) ∧
    (forward (s.stores c.g l) loc n = .part → s.loadLane io c m id (l, va, loc) = none) ∧
    (forward (s.stores c.g l) loc n = .none →
      (∀ co a, loc = .ws co a → s.loadLane io c m id (l, va, loc) = some (lane true (leVal (s.wsRead co a n)) (s.wsPoison co a n), s)) ∧
      (∀ p a, loc = .l2s p a → ∃ t, s.loadLane io c m id (l, va, loc) =
        some (lane true (leVal ((s.scratchMeet p a n).l2sRead p a n)) ((s.scratchMeet p a n).l2sPoison p a n), t)) ∧
      (∀ a y, loc = .dev a → m.l1 = true → (s.core (coreOf c.g)).l1Hit a = some y →
        ∃ t, s.loadLane io c m id (l, va, loc) = some (lane true (leVal (slice y.data (a % 128) n)) (bit y.bad (a % 128 / 32)), t)) ∧
      (∀ a, loc = .dev a → (m.l1 = false ∨ (s.core (coreOf c.g)).l1Hit a = none) →
        (s.lineHeld a = true → s.loadLane io c m id (l, va, loc) = none) ∧
        (s.lineHeld a = false → ∃ t, s.loadLane io c m id (l, va, loc) =
          some (lane true (leVal ((s.homeRead (s.req c.x.k.part c.x.k.tally 0) a).devRead a n))
            ((s.homeRead (s.req c.x.k.part c.x.k.tally 0) a).poisonAt a), t))) ∧
      (∀ b o, loc = .ctrl b o → ∃ t, s.loadLane io c m id (l, va, loc) = some (lane true (io.read s c.x.k.part b o n).1 false, t)) ∧
      (∀ i a r, loc = .host i a r → s.hostAsk c.x.k.part i a n (.load c.g id l) = none →
        s.loadLane io c m id (l, va, loc) = some (lane true 0 true, s)) ∧
      (∀ i a r u, loc = .host i a r → s.hostAsk c.x.k.part i a n (.load c.g id l) = some u →
        ∃ t, s.loadLane io c m id (l, va, loc) = some (lane false 0 false, t)) ∧
      (∀ p w d f o, loc = .adit p w d f o → s.reachable d = false → s.loadLane io c m id (l, va, loc) = some (lane true 0 true, s)))

/-- R112, R182: LOAD_RETURN writes the load's registers in its lanes, sign- or zero-extended, with poison marks; an acquire invalidates the L1. -/
def Claims.LoadReturnDelivers : Prop :=
  ∀ (g i : Nat) (s : State) (p : PendLoad),
    (s.gang g).pend[i]? = some p → p.kind ≠ .sem → (∀ l ∈ p.lanes, l.ready = true) →
    (∀ q ∈ (s.gang g).pend.take i, q.kind = .sem ∨ ∀ l ∈ q.lanes, ∀ m ∈ p.lanes, m.lane ≠ l.lane) →
    let u := s.updGang g fun x => p.lanes.foldl (init := { x with pend := x.pend.erase p }) fun x l =>
      x.setReg p.dst ((p.size + 3) / 4) l.lane (loadVal p.size p.sx l.data) (match l.poison with | some a => a + 1 | none => 0)
    let u := if p.kind = .acquire && p.devScope then u.clearL1 (coreOf g) else u
    exec (.loadReturn g i) s = .next ((u.settle g).reclaim (s.gang g).k.part)

/-- R113, R119, R120, R180: ST, ST.RELEASE and SEM.RELEASE put one entry per active lane at the end of the sub-core's store buffer, in
ascending lane order; a control page is written at once; no byte of memory changes before the entry drains. -/
def Claims.StoreRowsComplete : Prop :=
  ∀ e ∈ ([(Instr.st, 0x71, StKind.plain), (.stRelease, 0x74, .release), (.semRelease, 0x76, .semRelease)] :
      List ((Nat → DWord → DWord → Instr) × Nat × StKind)),
  ∀ (g : Nat) (w x : DWord) (s u : State) (path : Nat), Issues e.2.1 g w x s u path →
    let c := u.ctx g (withOp e.2.1 w) x.toNat path
    let d := if e.2.2 = .semRelease then c.xOpd 22 15 else c.dataOpd
    let bad := if e.2.2 = .semRelease then c.semBad else c.storeBad (e.2.2 == .release)
    c.check bad [c.base, d] [] = none →
    ∀ ts, (if e.2.2 = .semRelease then Reaches c u .both true 0 ts else Reaches c u .store (e.2.2 == .release) c.offset ts) →
    u.held (subOf g) + (u.storeEntries c e.2.2 (fun l => d.val c l) ts).length ≤ 32 →
    ∃ t, u.putStores regIo c e.2.2 (fun l => d.val c l) ts = .ok t [] false ∧
      (let v := finish c (s.readyLanes g) u (.ok t [] false)
       exec (e.1 g w x) s = .next (if e.2.2 = .plain then v.engineActions else v)) ∧
      ((∀ y ∈ ts, ∀ b o, y.2.2 ≠ .ctrl b o) →
        t.mem.dev = u.mem.dev ∧ t.mem.ws = u.mem.ws ∧ t.mem.l2s = u.mem.l2s ∧
        t.sub (subOf g) = u.sub (subOf g) ++ u.storeEntries c e.2.2 (fun l => d.val c l) ts ∧
        ∀ b, b ≠ subOf g → t.sub b = u.sub b)

/-- R113, R180, R193, R210: STORE_DRAIN performs an entry at its point of coherence and takes it from the buffer: the bytes of workspace or
L2 scratch, or those at the home slice (HomeWriteFrame), with the line that the core's L1 holds; an entry for a held channel stays. -/
def Claims.StoreDrainWrites : Prop :=
  ∀ (b i : Nat) (s : State) (e : StEntry), (s.sub b)[i]? = some e → mayLeave (s.sub b) i e = true →
    let held := ∃ a, e.loc = .dev a ∧ (s.writeHeld a = true ∨ (e.kind = .semRelease ∧ s.lineHeld a = true))
    (held → exec (.storeDrain b i) s = .next s) ∧
    (¬ held → exec (.storeDrain b i) s = .next (s.drain b i e)) ∧
    (∀ co a, e.loc = .ws co a → s.drain b i e = (s.wsWrite co a (leBytes e.size e.data)).storeDone b e) ∧
    (∀ p a, e.loc = .l2s p a → e.kind ≠ .semRelease → 8 ≤ e.size →
      s.drain b i e = (((s.charge (s.gang e.gang).k.part (s.gang e.gang).k.tally 6 1).l2sWrite p a (leBytes e.size e.data)).storeDone b e).semCheck) ∧
    (∀ a, e.loc = .dev a → e.kind ≠ .semRelease →
      s.drain b i e = (((s.homeWrite (s.req (s.gang e.gang).k.part (s.gang e.gang).k.tally 0) a (leBytes e.size e.data)).l1Store (b / 4) a
        (leBytes e.size e.data)).storeDone b e).semCheck) ∧
    (∀ h a r, e.loc = .host h a r → (s.port h).dom ≠ .ready → s.drain b i e = s.storeLost b e)

/-- R180, R219: the frame of a store at the home slice: of device memory only the bytes at the address, and at its other copy in a guarded region, change;
workspace and L2 scratch stay as they were; with no disturbed symbol in the arrays (R213). -/
def Claims.HomeWriteFrame : Prop :=
  ∀ (s : State) (r : Req) (a : Nat) (d : List Byte) (i : Nat), s.mem.flips = [] →
    (s.homeWrite r a d).mem.ws = s.mem.ws ∧ (s.homeWrite r a d).mem.l2s = s.mem.l2s ∧
    (¬ (a ≤ i ∧ i < a + d.length) → ¬ (s.guardedAt a = true ∧ copyB a ≤ i ∧ i < copyB a + d.length) →
      (s.homeWrite r a d).mem.dev.byte i = s.mem.dev.byte i) ∧
    (s.guardedAt a = false → s.deadAt a = false → a ≤ i → i < a + d.length →
      (s.homeWrite r a d).mem.dev.byte i = d.getD (i - a) 0#8)

/-- R115 to R117: ATOM serves its lanes in ascending order, each reading the element, and writing the result of AOP, in one step. -/
def Claims.AtomCompletes : Prop :=
  (∀ (g : Nat) (w x : DWord) (s v : State) (path : Nat), Issues 0x72 g w x s v path →
    let c := v.ctx g (withOp 0x72 w) x.toNat path
    c.check c.atomBad c.atomSrcs [{ kind := 0, idx := c.f 49 42, n := if c.f 29 27 = 3 then 2 else 1 }] = none →
    ∀ ts, c.heldUp = false → v.targets c .both true 0 = .ok ts → ts ≠ [] →
    ∀ ls u, State.atomLanes c v.uid ts { v with uid := v.uid + 1 } = some (ls, u) →
      exec (.atom g w x) s = .next (finish c (s.readyLanes g) v (.ok ((u.wsWords c ts).semCheck.addLoad c
        (loadOf .atom v.uid c.size false false c u ls)) [] false))) ∧
  (∀ (c : Ctx) (s : State) (id l va co a : Nat),
    let n := c.size
    let b := (c.xOpd 22 15).val c l
    let k := (c.xOpd 14 7).val c l
    let old := leVal (s.wsRead co a n)
    ((s.stores c.g l).any fun y => y.loc.overlaps y.size (.ws co a) n) = false →
    ∃ r u, s.atomLane c id (l, va, .ws co a) = some (r, u) ∧ r.data = old ∧ r.ready = true ∧
      (s.wsPoison co a n = true → u = s ∧ r.poison = some va) ∧
      (s.wsPoison co a n = false → u = s.wsWrite co a (leBytes n (aop (c.f 26 23) (8 * n) old b k)) ∧ r.poison = none)) ∧
  (∀ (c : Ctx) (s : State) (id l va p a : Nat),
    let n := c.size
    let t := s.scratchMeet p a n
    let old := leVal (t.l2sRead p a n)
    let t := t.charge c.x.k.part c.x.k.tally 6 1
    ((s.stores c.g l).any fun y => y.loc.overlaps y.size (.l2s p a) n) = false →
    ∃ r u, s.atomLane c id (l, va, .l2s p a) = some (r, u) ∧ r.data = old ∧ r.ready = true ∧
      (t.l2sPoison p a n = true → u = t ∧ r.poison = some va) ∧
      (t.l2sPoison p a n = false → r.poison = none ∧
        u = t.l2sWrite p a (leBytes n (aop (c.f 26 23) (8 * n) old ((c.xOpd 22 15).val c l) ((c.xOpd 14 7).val c l))))) ∧
  (∀ (c : Ctx) (s : State) (id l va a : Nat),
    let n := c.size
    let k := c.x.k
    let q := s.req k.part k.tally 0
    let t := ((s.l1Drop (coreOf c.g) a).homeRead q a).cacheLeaf (tlbCore (coreOf c.g)) k.part k.slot va
    let old := leVal (t.devRead a n)
    ((s.stores c.g l).any fun y => y.loc.overlaps y.size (.dev a) n) = false →
    (s.lineHeld a = true → s.atomLane c id (l, va, .dev a) = none) ∧
    (s.lineHeld a = false → ∃ r u, s.atomLane c id (l, va, .dev a) = some (r, u) ∧ r.data = old ∧ r.ready = true ∧
      (t.poisonAt a = true → u = t ∧ r.poison = some va) ∧
      (t.poisonAt a = false → r.poison = none ∧
        u = t.homeWrite q a (leBytes n (aop (c.f 26 23) (8 * n) old ((c.xOpd 22 15).val c l) ((c.xOpd 14 7).val c l)))))) ∧
  Traps .atom 0x72 (fun c _ => c.f 29 27 ≠ 2 ∧ c.f 29 27 ≠ 3 ∨ 10 < c.f 26 23 ∨ c.f 26 23 = 10 ∧ c.f 29 27 = 3) 0x02 Ctx.words

/-- R117: the operations of ATOM, on elements of n bits. -/
def Claims.AtomicOperations : Prop :=
  ∀ n a b c : Nat, 0 < n → a < 2 ^ n → b < 2 ^ n →
    aop 0 n a b c = (a + b) % 2 ^ n ∧
    aop 1 n a b c = (if sgn n a ≤ sgn n b then a else b) ∧ aop 2 n a b c = (if sgn n a ≤ sgn n b then b else a) ∧
    aop 3 n a b c = min a b ∧ aop 4 n a b c = max a b ∧
    aop 5 n a b c = a &&& b ∧ aop 6 n a b c = a ||| b ∧ aop 7 n a b c = a ^^^ b ∧
    aop 8 n a b c = b ∧ aop 9 n a b c = (if a = c then b else a) ∧ aop 10 n a b c = fadd 0 a b

/-- R120: SEM.ACQUIRE makes its lanes wait for their words, which are checked at once. -/
def Claims.SemAcquireWaits : Prop :=
  ∀ (g : Nat) (w x : DWord) (s u : State) (path : Nat), Issues 0x75 g w x s u path →
    let c := u.ctx g (withOp 0x75 w) x.toNat path
    c.check c.semBad [c.base, c.xOpd 22 15] [] = none →
    ∀ ts, Reaches c u .both true 0 ts → (∀ y ∈ ts, ∀ a, y.2.2 = .dev a → u.lineHeld a = false) →
    ∃ t, exec (.semAcquire g w x) s = .next ((finish c (s.readyLanes g) u (.ok t [] true)).semGang g) ∧
      ((u.gang g).live = true → ∃ p ∈ (t.gang g).pend, p.kind = .sem ∧ p.lanes.map (·.addr) = ts.map (·.2.1) ∧
        p.vals = ts.map (fun e => (c.xOpd 22 15).val c e.1))

/-- R80, R121 to R123, R128: fences, barriers, time reads and the gang status word. -/
def Claims.FenceAndBarrierRowsComplete : Prop :=
  Completes .fence 0x80 (fun c _ => c.check (c.sBad fSEL || c.f 25 24 == 0) [] [] = none)
    (fun c s => s.updGang c.g fun y => { y with
      holdLd := if bit (c.f 25 24) 0 then y.holdLd ||| c.act else y.holdLd
      holdSt := if bit (c.f 25 24) 1 then y.holdSt ||| c.act else y.holdSt }) ∧
  Completes .barGang 0x81 (fun c _ => c.check (c.sBad 0 || c.guarded) [] [] = none)
    (fun c s => c.wait s .gangBar) (fun _ => []) true ∧
  (∀ kc : Bool, Completes .barNamed 0x82
    (fun c s => bit c.w 15 = kc ∧ (kc = true → bit c.w 33 = true) ∧ c.guarded = false ∧
      c.check (c.guarded || c.sBad (fID + fKC + if kc then fA + fKA else fCOUNT) || (kc && !bit c.w 33))
        (if kc then [{ kind := c.f 33 33, idx := c.f 41 34, n := 1 }] else []) [] = none ∧
      let n := if kc then ({ kind := c.f 33 33, idx := c.f 41 34, n := 1 } : Opd).val c 0 else c.f 23 16
      let b := (s.core (coreOf c.g)).bar (c.f 29 26)
      1 ≤ n ∧ n ≤ 64 ∧ (Tab.get 0 b.counts c.g = 0 ∨ Tab.get 0 b.counts c.g = n) ∧ (b.count = none ∨ b.count = some n))
    (fun c s =>
      let n := if kc then ({ kind := c.f 33 33, idx := c.f 41 34, n := 1 } : Opd).val c 0 else c.f 23 16
      let t := (c.wait s (.named (c.f 29 26))).updBar (coreOf c.g) (c.f 29 26) fun b => { b with counts := Tab.set 0 b.counts c.g n }
      if (t.gang c.g).allAt = some (c.f 29 26) then t.updBar (coreOf c.g) (c.f 29 26) fun b => b.arrive c.g n else t)
    (fun _ => []) true) ∧
  Completes .timeRd 0xA0
    (fun c _ => c.check (c.guarded || c.sBad (fD + fKA + fSEL) || c.f 25 24 == 3) []
      [{ kind := c.f 33 33, idx := c.f 49 42, n := if c.f 25 24 = 1 then 1 else 2 }] = none)
    (fun c s => s.updGang c.g fun y => y.setDst c.lanes { kind := c.f 33 33, idx := c.f 49 42, n := if c.f 25 24 = 1 then 1 else 2 } fun _ =>
      if c.f 25 24 = 0 then s.tim.now else if c.f 25 24 = 1 then s.tim.frac
      else s.clk - s.rst.tierAt.getD (coreOf c.g / 144) 0) ∧
  Completes .gstRd 0xA1
    (fun c _ => c.check (c.sBad (fD + fKA)) [] [{ kind := c.f 33 33, idx := c.f 49 42, n := 1 }] = none ∧
      c.path &&& (c.x.holdLd ||| c.x.holdSt) = 0)
    (fun c s => s.updGang c.g fun y => y.setDst c.lanes { kind := c.f 33 33, idx := c.f 49 42, n := 1 } fun _ =>
      b2n c.x.storeErr + 2 * b2n (!c.x.marks.isEmpty)) ∧
  Completes .gstClr 0xA2 (fun c _ => c.check (c.sBad fCOUNT || c.f 23 18 != 0) [] [] = none)
    (fun c s => s.updGang c.g fun y => if c.act != 0 && bit c.w 16 then { y with storeErr := false } else y)

/-- R120, R193, R194: the time limits of loads and of adit stores, and the poll of waiting semaphores. -/
def Claims.MemoryTimersAct : Prop :=
  (∀ (g i : Nat) (s : State) (p : PendLoad), (s.gang g).pend[i]? = some p → p.kind ≠ .sem → (∃ l ∈ p.lanes, l.ready = false) →
    ∃ u, u = s.dropWaiters (fun w => match w with | .load h id _ => h == g && id == p.id | _ => false) ∧
      exec (.loadTimeout g i) s = .next (p.lanes.foldl (fun u l => if l.ready then u else u.laneAnswer g p.id l.lane 0 true) u)) ∧
  (∀ (b i : Nat) (s : State) (e : StEntry) (tag : Nat), (s.sub b)[i]? = some e → e.tag = some tag →
    exec (.aditStoreTimeout b i) s = .next ((s.dropTag tag).storeLost b e)) ∧
  (∀ (g : Nat) (s : State), exec (.semaphorePoll (.gang g)) s = .next (s.semGang g)) ∧
  (∀ (p k : Nat) (s : State) (a v w : Nat), (s.cmd p k).wait = .sem a v → (2 ^ 41 ≤ a ∨ s.lineHeld a = false) → s.semWord a = some w → v ≤ w →
    exec (.semaphorePoll (.cmd p k)) s = .next (s.await p k .done)) ∧
  (∀ (p k : Nat) (s : State) (a v : Nat), (s.cmd p k).wait = .sem a v → (2 ^ 41 ≤ a ∨ s.lineHeld a = false) → s.semWord a = none →
    exec (.semaphorePoll (.cmd p k)) s = .next (s.fail p k 0x04 (u64 (s.cmd p k).bytes 16)))

/-- R125 to R127: a push with room appends the active lanes' entries, a pop with entries enough takes them, in ascending lane order, and a pop
of a conveyor that has ended takes what is left; the TRY forms set the predicate, and write false and nothing else where they cannot; the
others make their path wait. -/
def Claims.ConveyorRowsComplete : Prop :=
  let setAll := fun (c : Ctx) (v : Bool) (s : State) => s.updGang c.g fun x => c.lanes.foldl (fun x l => x.setPred (c.f 32 30) l v) x
  let cv := fun (c : Ctx) (s : State) (b : CvBind) => s.conv c.x.k.part b.conveyor
  (∀ try_ b, Completes (if try_ then .cvPushTry else .cvPush) (if try_ then 0x8A else 0x88)
    (fun c s => CvOk false try_ c s b ∧ (cv c s b).dead = false ∧ c.lanes.length ≤ (cv c s b).room)
    (fun c s =>
      let t := (s.cvAppend c.x.k.part b.conveyor (c.x.cvEntries (c.f 49 42) (2 ^ b.width) c.lanes)).cvGo c.x.k.part b.conveyor
      if try_ then setAll c true t else t)) ∧
  (∀ try_ b, Completes (if try_ then .cvPopTry else .cvPop) (if try_ then 0x8B else 0x89)
    (fun c s => CvOk true try_ c s b ∧ (c.lanes.length ≤ (cv c s b).buf.length ∨ (try_ = false ∧ (cv c s b).ended = true)))
    (fun c s =>
      let k := min c.lanes.length (cv c s b).buf.length
      ((s.updGang c.g fun x => x.cvDeliver (c.f 49 42) (2 ^ b.width) (c.f 32 30) c.lanes ((cv c s b).buf.take k)).cvTake
        c.x.k.part b.conveyor k).cvGo c.x.k.part b.conveyor)) ∧
  (∀ b, Completes .cvPushTry 0x8A
    (fun c s => CvOk false true c s b ∧ (cv c s b).dead = false ∧ (cv c s b).room < c.lanes.length) (fun c s => setAll c false s)) ∧
  (∀ b, Completes .cvPopTry 0x8B
    (fun c s => CvOk true true c s b ∧ (cv c s b).buf.length < c.lanes.length) (fun c s => setAll c false s)) ∧
  (∀ b, Completes .cvPush 0x88
    (fun c s => CvOk false false c s b ∧ (cv c s b).dead = false ∧ (cv c s b).room < c.lanes.length)
    (fun c s => c.wait (s.updConv c.x.k.part b.conveyor fun x => { x with pushers := x.pushers ++
      [{ gang := c.g, path := c.path, lanes := c.act, reg := c.f 49 42, pd := some (c.f 32 30) }] }) (.cvPush (c.f 29 26))) (fun _ => []) true) ∧
  (∀ b, Completes .cvPop 0x89
    (fun c s => CvOk true false c s b ∧ (cv c s b).ended = false ∧ (cv c s b).buf.length < c.lanes.length)
    (fun c s => c.wait (s.updConv c.x.k.part b.conveyor fun x => { x with poppers := x.poppers ++
      [{ gang := c.g, path := c.path, lanes := c.act, reg := c.f 49 42, pd := some (c.f 32 30) }] }) (.cvPop (c.f 29 26))) (fun _ => []) true)

/-- R126, R370: entries received in order join the consumer's buffer, those received before change nothing; a credit frees the producer's; CLOSE closes an end; the credit timer and a
resend send what they say. -/
def Claims.ConveyorMessages : Prop :=
  (∀ (m : CvDataMsg) (r : CvCreditMsg) (s : State), s.devId = none →
    let u := s.updFab fun x => { x with badType := min (x.badType + 1) 0xFFFF }
    exec (.cvData m) s = .next u ∧ exec (.cvCredit r) s = .next u) ∧
  (∀ (m : CvDataMsg) (s : State), s.devId ≠ none →
    let i := m.conveyor
    (s.cvFind i m.src m.producer true = none → exec (.cvData m) s = .next s) ∧
    ∀ p, s.cvFind i m.src m.producer true = some p →
      let c := s.conv p i
      let n := m.entries.length
      c.ahead = [] → c.received < two32 →
      (m.sq = c.received → n ≤ c.depth → n < two32 → ∃ v : State, exec (.cvData m) s = .next ((v.cvChanged p i).cvGo p i) ∧
        v.conv p i = { c with buf := c.buf ++ m.entries, received := (c.received + n) % two32 }) ∧
      ((m.sq + n) % two32 = c.received → n + c.depth ≤ two32 → ∃ v : State, exec (.cvData m) s = .next ((v.cvChanged p i).cvGo p i) ∧ v.conv p i = c)) ∧
  (∀ (m : CvCreditMsg) (s : State), s.devId ≠ none →
    let i := m.producer
    (∀ p, s.cvFind i m.src m.consumer false = some p →
      let c := s.conv p i
      let n := modSub two32 m.received c.received
      let received := (c.received + n) % two32
      n ≤ c.buf.length → modSub two32 m.freed c.freed ≤ c.depth → modSub two32 c.sent received ≤ two32 / 2 →
      ∃ v : State, exec (.cvCredit m) s = .next ((v.cvFlush p i).cvGo p i) ∧
        v.conv p i = { c with buf := c.buf.drop n, received := received, freed := m.freed % two32, credit := true, closed := c.closed || m.close }) ∧
    (s.cvFind i m.src m.consumer false = none →
      (m.close = false → exec (.cvCredit m) s = .next s) ∧
      (m.close = true → s.cvFind m.consumer m.src m.producer true = none → exec (.cvCredit m) s = .next s) ∧
      (∀ p, m.close = true → s.cvFind m.consumer m.src m.producer true = some p →
        exec (.cvCredit m) s = .next ((s.updConv p m.consumer fun c => { c with closed := true }).cvGo p m.consumer)))) ∧
  (∀ (p i : Nat) (s : State),
    let c := s.conv p i
    let due := c.declared = true ∧ c.producer = 0xFF ∧ c.closed = false ∧
      (c.received ≠ c.sentRecv ∨ c.freed ≠ c.sentFreed ∨ c.told = false)
    (¬ due → exec (.cvCreditTimer p i) s = .next s) ∧
    (due → ∃ t, exec (.cvCreditTimer p i) s = .next t ∧ t.conv p i = { c with sentRecv := c.received, sentFreed := c.freed, told := true } ∧ t.mem = s.mem) ∧
    let n := modSub two32 c.sent c.received
    let out := c.declared = true ∧ c.consumer = 0xFF ∧ c.credit = true ∧ c.dead = false ∧ 0 < n ∧ n ≤ c.buf.length
    (¬ out → exec (.cvResend p i) s = .next s) ∧
    (out → exec (.cvResend p i) s = .next (State.cvSend p i n c.received (c.buf.take n) s))) ∧
  ∀ (p i n sq : Nat) (l : List (BitVec 128)) (s : State), l ≠ [] → 1 ≤ n → l.length ≤ 192 / cvBytes (s.conv p i).width →
    let c := s.conv p i
    State.cvSend p i n sq l s = (s.originate 0x20 c.dev (0x4000 + p * 256 + c.rconv) (s.sv.portGrant p)
      (leBytes 1 c.rconv ++ leBytes 1 i ++ leBytes 1 c.width ++ leBytes 1 l.length ++ leBytes 4 sq ++ leBytes 8 0 ++
        l.flatMap fun e => leBytes (cvBytes c.width) e.toNat)).charge p 0 9 1

/-- R131 to R135, R145 to R150: the matrix rows: fragments move between workspace and registers, a tile or accumulators enter an array, a run is
queued with its operands, and the accumulators are drained. -/
def Claims.MatrixRowsComplete : Prop :=
  let base := fun (c : Ctx) => ({ kind := 1, idx := c.f 41 34, n := 1 } : Opd)
  let addr := fun (c : Ctx) => ((base c).val c 0 + c.f 20 0) % two32
  let regs := fun (c : Ctx) => fragRegs (c.f 30 28) c.desc.fmtS c.desc.mode
  let fragBad := fun (c : Ctx) => c.hasExt || c.tBad (fV + fA + fMD + fFRAG + fOFF) || decide (c.f 30 28 > 1) || c.oddV || (base c).bad
  let inside := fun (c : Ctx) (s : State) => addr c % 16 = 0 ∧ c.x.k.inWs (addr c) (ceilDiv (regs c) 4 * 512) = true ∧
    c.fragWait s (addr c) (ceilDiv (regs c) 4 * 512) = false
  let unit := fun (c : Ctx) (s : State) => (s.core (coreOf c.g)).unit c.desc.unit
  Completes .mfragLoad 0x90 (fun c s => c.mCheck (fragBad c) [] (c.frag (regs c)) = none ∧ inside c s)
    (fun c s => (s.updGang c.g fun x => (List.range 32).foldl (init := x) fun x l => (List.range (regs c)).foldl (init := x) fun x i =>
        let b := addr c + fragAt i l
        x.setReg (c.f 49 42 + i) 1 l (fragMask (c.f 30 28) c.desc.fmtS c.desc.mode i (leVal (s.wsRead (coreOf c.g) b 4)))
          (if s.wsPoison (coreOf c.g) b 4 then b + 1 else 0)).charge c.x.k.part c.x.k.tally 5 (ceilDiv (regs c) 4 * 32)) ∧
  Completes .mfragStore 0x91 (fun c s => c.mCheck (fragBad c) (c.frag (regs c)) [] = none ∧ inside c s)
    (fun c s => ((List.range 32).foldl (init := s) fun s l => (List.range (ceilDiv (regs c) 4)).foldl (init := s) fun s q =>
      s.wsWrite (coreOf c.g) (addr c + fragAt (4 * q) l) ((List.range 4).flatMap fun j =>
        leBytes 4 (if 4 * q + j < regs c then
          fragMask (c.f 30 28) c.desc.fmtS c.desc.mode (4 * q + j) (Tab.get 0#32 c.x.regs ((c.f 49 42 + (4 * q + j)) * 32 + l)).toNat
          else 0))).charge c.x.k.part c.x.k.tally 5 (ceilDiv (regs c) 4 * 32)) ∧
  Completes .mmaStat 0x92
    (fun c s => c.f 30 28 = 0 ∧ c.mCheck (c.hasExt || c.tBad (fV + fMD + fFRAG) || decide (c.f 30 28 > 1) || c.oddV) (c.frag (regs c)) [] = none ∧
      (unit c s).shadowHeld s.clk = false)
    (fun c s => s.updUnit (coreOf c.g) c.desc.unit fun u => { u with shadow := some c.tile, claimed := none }) ∧
  Completes .mmaStat 0x92
    (fun c s => c.f 30 28 = 1 ∧ c.mCheck (c.hasExt || c.tBad (fV + fMD + fFRAG) || decide (c.f 30 28 > 1) || c.oddV) [] (c.frag (regs c)) = none ∧
      (unit c s).runs = [])
    (fun c s => s.updUnit (coreOf c.g) c.desc.unit fun u =>
      (List.range 32).foldl (init := u) fun u l => (List.range (regs c)).foldl (init := u) fun u j =>
        { u with
          acc := Tab.set 0 u.acc (accAt c.desc.mode l j) (Tab.get 0 c.x.regs ((c.f 49 42 + j) * 32 + l))
          accPoison := Tab.set false u.accPoison (accAt c.desc.mode l j) (Tab.get 0 c.x.marks ((c.f 49 42 + j) * 32 + l) != 0) }) ∧
  Completes .mmaDrain 0x94
    (fun c s => c.mCheck (c.hasExt || c.tBad (fV + fMD) || c.oddV) [] (c.frag (fragRegs 1 c.desc.fmtS c.desc.mode)) = none ∧ (unit c s).runs = [])
    (fun c s => s.updGang c.g fun x =>
      (List.range 32).foldl (init := x) fun x l => (List.range (fragRegs 1 c.desc.fmtS c.desc.mode)).foldl (init := x) fun x j =>
        x.setReg (c.f 49 42 + j) 1 l (Tab.get 0 (unit c s).acc (accAt c.desc.mode l j)).toNat
          (if Tab.get false (unit c s).accPoison (accAt c.desc.mode l j) then 1 else 0))

/-- R134, R147, R157: MMA.RUN takes its operands, inverts the tag where a new tile waits, and joins the queue of its array. -/
def Claims.MmaRunQueues : Prop :=
  ∀ (g : Nat) (w x : DWord) (s v : State) (path : Nat), Issues 0x93 g w x s v path →
    let c := v.ctx g (withOp 0x93 w) x.toNat path
    let d := c.desc
    let sc := if c.hasExt then bits c.ext 42 41 else 0
    let u := (v.core (coreOf g)).unit d.unit
    c.mCheck (c.tBad fMD || c.hasExt != decide (3 ≤ d.fmtW ∧ d.fmtW ≤ 7) ||
      (c.hasExt && (bits c.ext 63 43 % 16 != 0 || bits c.ext 42 41 == 3 || (bits c.ext 42 41 != 2 && bits c.ext 40 35 != 0) ||
        bits c.ext 34 0 != 0))) [] [] = none →
    (d.k * vecBytes d.fmtW d.mode = 0 ∨ c.x.k.inWs d.waddr (d.k * vecBytes d.fmtW d.mode) = true) →
    (d.k * scaleBytes sc d.mode = 0 ∨ c.x.k.inWs (bits c.ext 63 43) (d.k * scaleBytes sc d.mode) = true) →
    u.runs.length < 4 →
    ∃ t r, exec (.mmaRun g w x) s = .next (finish c (s.readyLanes g) v (.ok t [] false)) ∧
      r.gang = g ∧ r.fmtS = d.fmtS ∧ r.fmtW = d.fmtW ∧ r.rows = d.rows ∧ r.cols = d.cols ∧ r.acc = d.acc ∧ r.count = d.k ∧ r.waddr = d.waddr ∧
      r.scale = sc ∧ r.swaps = (decide (0 < d.k) && u.shadow.isSome && u.claimed.isNone) ∧
      ((t.core (coreOf g)).unit d.unit).runs = u.runs ++ [r] ∧
      ((t.core (coreOf g)).unit d.unit).tag = (if r.swaps then !u.tag else u.tag) ∧ t.mem = v.mem

/-- R134, R148, R150, R156, R168: MMA_RUN_COMPLETE adds each vector of the oldest run, in every active column, to its slot (from zero
unless ACC), marks the slot where the vector was poisoned, and frees the shadow of a tile that has swapped in. -/
def Claims.MmaRunCompleteAccumulates : Prop :=
  ∀ (core u : Nat) (s : State) (r : MRun) (rest : List MRun), ((s.core core).unit u).runs = r :: rest →
    r.count ≤ (if r.mode = 0 then 32 else 16) → r.cols < 32 → (r.tile.fmt = 0 ∨ r.tile.fmt = r.fmtS) → s.rst.tripped = false →
    ∃ t, exec (.mmaRunComplete core u) s = .next t ∧ t.mem = s.mem ∧ ((t.core core).unit u).runs = rest ∧
      (r.swaps = true → ((s.core core).unit u).claimed = some r.first → ((t.core core).unit u).shadow = none) ∧
      ∀ v < r.count, ∀ c ≤ r.cols,
        let e := vecBytes r.fmtW r.mode
        let n := scaleBytes r.scale r.mode
        let old := if r.acc then (Tab.get 0 ((s.core core).unit u).acc (32 * v + c)).toNat else 0
        Tab.get 0 ((t.core core).unit u).acc (32 * v + c) = BitVec.ofNat 32 (fadd 0 old
          (columnSum r r.mode (fun k => Tab.get 0 r.tile.elems (k * 32 + c))
            (vecElem (leVal (s.wsRead core (r.waddr + v * e) e)) (fmtBits r.fmtW))
            (leVal (s.wsRead core (r.saddr + v * n) 1)) (leVal (s.wsRead core (r.saddr + v * n + 1) 1)))) ∧
        (s.wsPoison core (r.waddr + v * e) (ceilDiv (fmtBits r.fmtW * (r.rows + 1)) 8) = true →
          Tab.get false ((t.core core).unit u).accPoison (32 * v + c) = true)

/-- The model's choice (log entry 1): a step on an empty queue lets one reference cycle pass, in which Record Time
(once D1 runs, and outside a slew) rises by 1 ns, and no register of a gang and no byte of memory changes. -/
def Claims.StepIdleTicks : Prop :=
  ∀ s : State, s.pending = [] → ∃ t, step s = .next t ∧ t.clk = s.clk + 1 ∧ t.pending = [] ∧
    t.gangs = s.gangs ∧ t.mem = s.mem ∧ t.subs = s.subs ∧ t.parts = s.parts ∧ t.ports = s.ports ∧ t.fns = s.fns ∧ t.flash = s.flash ∧
    t.rst = s.rst ∧ (s.rel 1 = false → t.tim = s.tim) ∧
    (s.rel 1 = true → s.tim.slew = 0 → s.tim.frac < 65536 → t.tim = { s.tim with now := (s.tim.now + 1) % two64 })

/-- R326, R338: the end of a slew is what its cycles come to, one by one: each adds 1 ns and, of the error, at most 500 ppm, until none is left; it passes over no event of
the cadence, but goes on to the next one (the model's choice, log entry 100). -/
def Claims.SlewEndIsItsCycles : Prop :=
  (∀ s : State, s.tim.slew = 0 → exec .slewEnd s = .next s) ∧
  ∀ s : State, s.tim.slew ≠ 0 →
    let n := match s.nextEvent with
      | some e => min s.tim.slewCycles (s.tim.cyclesTo e)
      | none => s.tim.slewCycles
    n ≠ 0 →
    ∃ t, exec .slewEnd s = .next t ∧ t.clk = s.clk + n ∧ { t with clk := s.clk, tim := s.tim } = s ∧
      { Nat.repeat Tim.tick n s.tim with slewAcc := 0 } = { t.tim with slewAcc := 0 } ∧
      (n = s.tim.slewCycles → t.tim.slew = 0 ∧ t.tim.slewAcc = 0 ∧
        ((t.tim.now * 65536 + t.tim.frac : Nat) : Int) =
          ((s.tim.now * 65536 + s.tim.frac + n * 65536 : Nat) + s.tim.slew) % (two64 * 65536 : Nat)) ∧
      ∀ e, s.nextEvent = some e → e + 1 < two64 → t.tim.now ≤ e + 1

/-- R72: case 1, every running gang of the core whose live threads wait at two or more barriers traps, and no other; else case 2, every
gang of the core traps when each is split or has arrived at a named barrier, one has arrived, none is halted, and no gang of the launch that may
still start there can complete an open instance; else nothing changes. -/
def Claims.BarrierDeadlockTraps : Prop :=
  ∀ (core : Nat) (s : State),
    let on := fun g => 64 * core ≤ g ∧ g < 64 * core + 64 ∧ (s.gang g).live = true ∧ (s.gang g).done = false
    let runs := fun g => (s.gang g).mode = .running ∧ (s.gang g).trap = none
    let arrived := fun g => ∃ i < 16, g ∈ ((s.core core).bar i).arrived
    ((∃ g, on g ∧ (s.gang g).split = true ∧ runs g) →
      ∃ t, exec (.barrierDeadlock core) s = .next t ∧ t.mem = s.mem ∧ t.subs = s.subs ∧ t.cores = s.cores ∧
        (∀ g, on g ∧ (s.gang g).split = true ∧ runs g → deadlocked 1 g s t) ∧
        ∀ g, ¬ (on g ∧ (s.gang g).split = true ∧ runs g) → t.gang g = s.gang g) ∧
    ((¬ ∃ g, on g ∧ (s.gang g).split = true ∧ runs g) → (∃ g, on g ∧ arrived g) →
      (∀ g, on g → ((s.gang g).split = true ∨ arrived g) ∧ runs g) → s.mayArrive core = false →
      ∃ t, exec (.barrierDeadlock core) s = .next t ∧ t.mem = s.mem ∧ t.subs = s.subs ∧ t.cores = s.cores ∧
        (∀ g, on g → (s.gang g).liveLanes ≠ [] → deadlocked 2 g s t) ∧ ∀ g, ¬ on g → t.gang g = s.gang g) ∧
    ((¬ ∃ g, on g ∧ (s.gang g).split = true ∧ runs g) →
      ¬ ((∃ g, on g ∧ arrived g) ∧ (∀ g, on g → ((s.gang g).split = true ∨ arrived g) ∧ runs g) ∧ s.mayArrive core = false) →
      exec (.barrierDeadlock core) s = .next s)

/-- R81 to R84: a recorded trap waits for the gang's instructions and stores; then, under trap stop, the gang halts with its cause, its
registers and program counters as they were, and the ring is not marked guilty; otherwise the trapped gangs of its kernel that are ready are reported in ascending
order and the ring is marked guilty once. -/
def Claims.KernelTrapReports : Prop :=
  ∀ (g : Nat) (s : State) (t : Trap), (s.gang g).trap = some t → (s.gang g).live = true →
    let x := s.gang g
    (s.quiet g true = false → exec (.kernelTrap g) s = .next s) ∧
    (s.quiet g true = true → bit s.trapStop x.k.part = true →
      ∃ u, exec (.kernelTrap g) s = .next u ∧ u.gang g = { x with mode := .halted, stepPath := 0, cause := t.code, trap := none } ∧
        (∀ h, h ≠ g → u.gang h = s.gang h) ∧ ∀ p n, (u.ring p n).guilty = (s.ring p n).guilty) ∧
    (s.quiet g true = true → bit s.trapStop x.k.part = false →
      exec (.kernelTrap g) s = .next
        (((s.gangs.filter fun e => e.2.live && e.2.trap.isSome && e.2.k.part == x.k.part && e.2.k.cmd == x.k.cmd && s.quiet e.1 true).foldl
          (fun u e => match e.2.trap with | some v => u.trapRecord e.1 v false | none => u) s).guilty x.k.part x.k.ring 1))

/-- R91, R94: HALT makes a running gang HALTING, and changes neither a halted gang nor a free slot; RESUME sends a halted gang back with every
age zero. -/
def Claims.HaltAndResume : Prop :=
  (∀ q g s, DbgAt q g s → (s.gang g).live = true → (s.gang g).mode = .running →
    DbgAnswers (.halt q) q g 0 s { s.gang g with mode := .halting, dbgBy := q }) ∧
  (∀ q g s, DbgAt q g s → (s.gang g).live = true → (s.gang g).mode = .halted → DbgAnswers (.halt q) q g 0 s (s.gang g)) ∧
  (∀ q g s, DbgAt q g s → (s.gang g).live = false → DbgAnswers (.halt q) q g 6 s (s.gang g)) ∧
  (∀ q g s, DbgAt q g s → (s.gang g).live = true → (s.gang g).mode = .halted →
    ∃ x, DbgAnswers (.resume q) q g 0 s x ∧ x.mode = .running ∧ x.cause = 0 ∧ x.trap = none ∧ x.regs = (s.gang g).regs ∧
      ∀ l, (x.lane l).age = 0 ∧ (x.lane l).pc = ((s.gang g).lane l).pc ∧ (x.lane l).wait = ((s.gang g).lane l).wait) ∧
  (∀ q g s, DbgAt q g s → (s.gang g).mode = .running → DbgAnswers (.resume q) q g 4 s (s.gang g)) ∧
  (∀ g s, (s.gang g).live = true → (s.gang g).mode = .halting → (s.gang g).trap = none → s.quiet g false = true →
    exec (.haltComplete g) s = .next (s.updGang g fun x => { x with mode := .halted, cause := 0 })) ∧
  (∀ g s, (s.gang g).live = true → (s.gang g).mode = .stepping → (s.gang g).stepPath = 0 → (s.gang g).trap = none → s.quiet g false = true →
    exec (.stepComplete g) s = .next (s.updGang g fun x => { x with mode := .halted, cause := 0 }))

/-- R92: a step of a halted gang issues one instruction along the path that the scheduler, or the lane named, chooses; with no such path it ends
NOT_READY and changes nothing. -/
def Claims.StepsIssueOne : Prop :=
  ∀ e ∈ ([(fun q w x => Instr.stepGang q w x, none)] ++ (List.range 32).map fun l => (fun q w x => Instr.stepPath q l w x, some l) :
      List ((Nat → DWord → DWord → Instr) × Option Nat)),
  ∀ q g w x s, DbgAt q g s → (s.gang g).live = true → (s.gang g).mode = .halted →
    (∀ p, s.stepFor g e.2 = some p →
      let u := (s.updGang g fun y => { y with
        mode := .stepping, dbgBy := q, stepPath := p, mWait := 0, trap := none, cause := 0 }).dbgResult q 0
      exec (e.1 q w x) s = .next (((issueTurn (semOf regIo (fld w 57 50)) g w.toNat x.toNat u).semGang g).engineActions)) ∧
    (s.stepFor g e.2 = none → DbgAnswers (e.1 q w x) q g 5 s (s.gang g))

/-- R90, R93: REG_READ and REG_WRITE of each kind of register of a halted gang; a program counter write; on a gang that runs they change nothing. -/
def Claims.DebugRegisterAccess : Prop :=
  (∀ q g s, DbgAt q g s → (s.gang g).live = true → (s.gang g).mode = .halted →
    let x := s.gang g
    let v := (s.fn q).dbg.regSel
    let d := (s.fn q).dbg.regData
    let i := bits v 23 16
    (bits v 26 24 = 0 → i < x.k.vregs →
      DbgAnswers (.regRead q) q g 0 s x (some (Tab.get 0 x.regs (i * 32 + v % 32)).toNat) ∧
      DbgAnswers (.regWrite q) q g 0 s { x with
        regs := Tab.set 0 x.regs (i * 32 + v % 32) (BitVec.ofNat 32 d), marks := Tab.set 0 x.marks (i * 32 + v % 32) 0 }) ∧
    (bits v 26 24 = 1 → i < 64 →
      DbgAnswers (.regRead q) q g 0 s x (some (Tab.get 0 x.uregs i).toNat) ∧
      DbgAnswers (.regWrite q) q g 0 s { x with uregs := Tab.set 0 x.uregs i (BitVec.ofNat 32 d) }) ∧
    (bits v 26 24 = 2 → i < 8 →
      DbgAnswers (.regRead q) q g 0 s x (some (Tab.get 0 x.preds i).toNat) ∧
      DbgAnswers (.regWrite q) q g 0 s { x with preds := Tab.set 0 x.preds i (BitVec.ofNat 32 d) }) ∧
    (bits v 26 24 = 3 → i < 8 →
      DbgAnswers (.regRead q) q g 0 s x (some (Tab.get 0 x.mdesc i).toNat) ∧
      DbgAnswers (.regWrite q) q g 0 s { x with mdesc := Tab.set 0 x.mdesc i (BitVec.ofNat 64 d) }) ∧
    (bits v 26 24 = 4 →
      DbgAnswers (.regRead q) q g 0 s x (some (b2n x.storeErr + 2 * b2n (!x.marks.isEmpty))) ∧
      DbgAnswers (.regWrite q) q g 0 s { x with storeErr := bit d 0 }) ∧
    (5 ≤ bits v 26 24 → DbgAnswers (.regRead q) q g 8 s x ∧ DbgAnswers (.regWrite q) q g 8 s x)) ∧
  (∀ q g s, DbgAt q g s → (s.gang g).mode = .running →
    DbgAnswers (.regRead q) q g 4 s (s.gang g) ∧ DbgAnswers (.regWrite q) q g 4 s (s.gang g)) ∧
  (∀ q g s l v, DbgAt q g s → (s.gang g).live = true → (s.gang g).mode = .halted → l < 32 → bit (s.gang g).exited l = false →
    v.toNat % 8 = 0 → bits v.toNat 63 56 = 0 →
    exec (.dbgLanePcWrite q l v) s = .next (s.updGang g fun x => x.updLane l fun y => { y with pc := v.toNat })) ∧
  (∀ q g s l v, DbgAt q g s → ((s.gang g).mode = .running ∨ bit (s.gang g).exited l = true ∨ v.toNat % 8 ≠ 0 ∨ bits v.toNat 63 56 ≠ 0) →
    exec (.dbgLanePcWrite q l v) s = .next s)

/-- R85, R94: FAULT on a gang halted on a trap marks its ring guilty; on any other gang it ends NO_TRAP. An operation on a gang whose partition
does not allow host debug to the function ends DENIED, one on a gang that is halting or stepping BUSY, one on a number beyond the last RANGE, and all of them
change nothing. -/
def Claims.DebugFaultAndDenials : Prop :=
  (∀ q g s, DbgAt q g s → (s.gang g).live = true → (s.gang g).mode = .halted → (s.gang g).cause ≠ 0 →
    exec (.fault q) s = .next ((s.guilty (s.gang g).k.part (s.gang g).k.ring 1).dbgResult q 0)) ∧
  (∀ q g s, DbgAt q g s → (s.gang g).cause = 0 → DbgAnswers (.fault q) q g 9 s (s.gang g)) ∧
  ∀ q g s, s.hears q = true → s.rel 1 = true → ((q = 32 ∧ s.dpt.unlock ≠ 0) ∨ (q ≠ 32 ∧ s.mayGlobal q = true)) →
    (s.fn q).dbg.gangSel % 65536 = g →
    ∀ c ∈ [Instr.halt q, .resume q, .stepGang q 0 0, .stepPath q 0 0 0, .regRead q, .regWrite q, .fault q],
      (g > 36863 → DbgAnswers c q g 2 s (s.gang g)) ∧
      (g ≤ 36863 → (s.gang g).live = true → ((s.gang g).mode = .halting ∨ (s.gang g).mode = .stepping) → DbgAnswers c q g 1 s (s.gang g)) ∧
      (g ≤ 36863 → (s.gang g).live = true → (s.gang g).mode ≠ .halting → (s.gang g).mode ≠ .stepping →
        s.dbgMay q (s.gang g).k.part = false → DbgAnswers c q g 3 s (s.gang g))

/-- R6, R7, R517: a read of a register at its width gives its value, and an RC register then reads zero; another keeps its value. A 4-byte read of a
64-bit register gives its low half and latches its high half, which the function's next read of that half gives, once; without a
latch the half is live. -/
def Claims.RegisterReads : Prop :=
  (∀ (s : State) q off r, s.hears q = true → s.reg (s.who q) off = some r → off % r.size = 0 → off ≠ 0x0600008 → ¬ portCounters off →
    ∃ t x, exec (.readClear q off r.size) s = .next t ∧ (t.fn q).rdata = r.val ∧ t.reg (t.who q) off = some x ∧
      x = (if r.rc = true then { r with val := 0 } else r) ∧ t.mem.dev = s.mem.dev ∧ t.gangs = s.gangs ∧ t.flash = s.flash ∧ t.clk = s.clk) ∧
  (∀ (s : State) q i r, s.hears q = true → i < 32 → s.reg (s.who q) (0x0701010 + 32 * i) = some r →
    ∃ t, exec (.readClear q (0x0701010 + 32 * i) 8) s = .next t ∧ (t.fn q).rdata = r.val ∧
      (t.fabPort i).downs = 0 ∧ (t.fabPort i).replays = 0) ∧
  (∀ (s : State) q off r, s.hears q = true → s.reg (s.who q) off = some r → r.size = 8 → off % 8 = 0 →
    ∃ t, exec (.halfReadLatch q off) s = .next t ∧ (t.fn q).rdata = r.val % two32 ∧
      Tab.get none (t.fn q).rdLatch off = some (r.val / two32) ∧
      (r.rc = true → ¬ portCounters off → ∃ x, t.reg (t.who q) off = some x ∧ x.val = 0)) ∧
  (∀ (s : State) q off v, s.hears q = true → off % 8 = 0 → s.reg (s.who q) (off + 4) = none → Tab.get none (s.fn q).rdLatch off = some v →
    ∃ t, exec (.halfReadLatch q (off + 4)) s = .next t ∧ (t.fn q).rdata = v % two32 ∧ Tab.get none (t.fn q).rdLatch off = none) ∧
  (∀ (s : State) q off r, s.hears q = true → off % 8 = 0 → s.reg (s.who q) (off + 4) = none → Tab.get none (s.fn q).rdLatch off = none →
    s.reg (s.who q) off = some r → r.size = 8 →
    exec (.halfReadLatch q (off + 4)) s = .next (s.updFn q fun f => { f with rdata := r.val / two32 % two32 })) ∧
  (∀ (s : State) q off n, s.hears q = false →
    exec (.readClear q off n) s = .next s ∧ exec (.halfReadLatch q off) s = .next s)

/-- R5, R7, R20, R21, R517: a write of a register at its width leaves what the register keeps of it; the halves of a 64-bit register are joined; a narrow
or unaligned write and one to a global block by a function of the other port change no register; the latter is counted; DEV_PART_SEL is
each function's own. A driver's action on a copy engine that has waited is then taken, where there is one. -/
def Claims.RegisterWrites : Prop :=
  (∀ s : State, (∀ e ∈ s.engines.keys, (s.engine e).action = 0) → s.engineActions = s) ∧
  (∀ e ∈ globalRegs, ∀ q v s, s.hears q = true → q ≠ 32 → s.mayGlobal q = true → s.rel 1 = true →
    ∃ t, Writes q e.1 e.2.1 v s t ∧ t.reg (t.who q) e.1 = some { size := e.2.1, val := e.2.2 (v.toNat % 2 ^ (8 * e.2.1)) } ∧
      t.mem = s.mem ∧ t.gangs = s.gangs ∧ t.parts = s.parts ∧ t.flash = s.flash ∧ t.fns = s.fns ∧ t.rst = s.rst) ∧
  (∀ e ∈ partRegs, ∀ q p v s, s.hears q = true → q ≠ 32 → (s.who q).view = some p → s.rel (blockDomain (e.1 / 2 ^ 20)) = true →
    ∃ t, Writes q e.1 e.2.1 v s t ∧ t.reg (t.who q) e.1 = some { size := e.2.1, val := e.2.2 (v.toNat % 2 ^ (8 * e.2.1)) } ∧
      t.mem = s.mem ∧ t.gangs = s.gangs ∧ t.tim = s.tim ∧ t.flash = s.flash ∧ t.fns = s.fns ∧ t.rst = s.rst ∧ ∀ i, i ≠ p → t.part i = s.part i) ∧
  (∀ q off size v s, s.hears q = true → ((size ≠ 4 ∧ size ≠ 8) ∨ off % size ≠ 0) → Writes q off size v s s) ∧
  (∀ q off v s, s.hears q = true → off % 8 = 0 → s.wideReg (s.who q) off = true → s.foreignAt (s.who q) off = false →
    Writes q off 8 v s (s.regSet (s.who q) off v.toNat) ∧
    Writes q off 4 v s (s.updFn q fun f => { f with wrLatch := Tab.set none f.wrLatch off (some (v.toNat % two32)) })) ∧
  (∀ q off v low s, s.hears q = true → off % 8 = 0 → s.wideReg (s.who q) off = true → s.reg (s.who q) (off + 4) = none →
    s.foreignAt (s.who q) (off + 4) = false → Tab.get none (s.fn q).wrLatch off = some low →
    Writes q (off + 4) 4 v s
      ((s.updFn q fun f => { f with wrLatch := Tab.set none f.wrLatch off none }).regSet (s.who q) off (low + v.toNat % two32 * two32))) ∧
  (∀ q off v s, s.hears q = true → s.mayGlobal q = false → q ≠ 32 → off / 2 ^ 20 ∈ [1, 4, 6, 7, 9, 12, 14] →
    s.rel (blockDomain (off / 2 ^ 20)) = true → off % 4 = 0 →
    Writes q off 4 v s { s with foreignWr := satAdd 0xFFFFFFFF s.foreignWr 1 }) ∧
  (∀ q off size v s, s.hears q = false → exec (.registerWrite q off size v) s = .next s.engineActions) ∧
  (∀ q v s, s.hears q = true → s.rel 0 = true →
    exec (.devPartSel q v) s = .next (s.updFn q fun f => { f with partSel := some (v % 16) }) ∧
    ((s.updFn q fun f => { f with partSel := some (v % 16) }).partSel q).1 = v % 16)

/-- R45 to R47: VALIDATE, APPLY and STORE start when none runs; a request while one runs sets BUSY; VALIDATE and APPLY end with REFUGE in
Refuge; ABORT ends an operation in states 1 to 4, lifts the drain and changes no setting, and is ignored in any other state. -/
def Claims.SurveyOperationsStart : Prop :=
  ∀ (q : Nat) (s : State), GlobalAt q 1 s →
    (∀ e ∈ [(Instr.validate q, 1), (.apply q, 2), (.store q, 3)],
      (s.srv.state.busy = false → (s.rst.refuge = 0 ∨ e.2 = 3) →
        exec e.1 s = .next { s with srv := { s.srv with state := .fetching, code := 0, detail := 0, op := e.2, cand := none, behind := s.updating } }) ∧
      (s.srv.state.busy = true → exec e.1 s = .next { s with srv := { s.srv with code := 1 } }) ∧
      (s.srv.state.busy = false → s.rst.refuge ≠ 0 → e.2 ≠ 3 →
        ∃ t, exec e.1 s = .next t ∧ t.srv.state = .failed ∧ t.srv.code = 0x19 ∧ surveyUntouched s t)) ∧
    (s.srv.state ∈ [.fetching, .validating, .draining, .waiting] →
      ∃ t, exec (.abort q) s = .next t ∧ t.srv.state = .failed ∧ t.srv.code = 0x17 ∧ t.srv.drain = 0 ∧ surveyUntouched s t ∧
        (s.srv.state ∈ [.draining, .waiting] → ∀ p, (t.part p).draining = false)) ∧
    (s.srv.state ∉ [.fetching, .validating, .draining, .waiting] → exec (.abort q) s = .next s)

/-- R42, R45 to R52: how the validation ends: an image not read, or one that fails, ends the operation and changes nothing; a good image ends VALIDATE,
goes to flash for STORE, takes effect at once while SURVEY_LIVE is 0, waits for a window where no partition changes, and else drains those that do.
An operation that came behind an update waits (R434). -/
def Claims.SurveyValidationEnds : Prop :=
  ∀ (s : State), s.dpt.up = true → (s.srv.state = .fetching ∨ s.srv.state = .validating) →
    let run := fun (img : Option (List Byte)) => exec (.surveyValidationEnd img) s
    (s.srv.behind = true → ∀ img, run img = .next s) ∧
    (s.srv.behind = false → ∃ t, run none = .next t ∧ t.srv.state = .failed ∧ t.srv.code = 2 ∧ surveyUntouched s t) ∧
    (s.srv.behind = false → ∀ b,
      let s0 : State := { s with srv := { s.srv with changed := 0 } }
      let base := match s.srv.applied, s.live with
        | some a, true => some (a.serial, a.hash)
        | _, _ => s.flash.stored.map fun b => (u64 b 0x18, slice b 0x20 32)
      (∀ code d, s0.validate b s.srv.len s.srv.op base = .error (code, d) → code ≠ 0 →
        ∃ t, run (some b) = .next t ∧ t.srv.state = .failed ∧ t.srv.code = code ∧ t.srv.detail = d ∧ surveyUntouched s t) ∧
      ∀ v, s0.validate b s.srv.len s.srv.op base = .ok v →
        (s.srv.op = 1 → ∃ t, run (some b) = .next t ∧ t.srv.state = .done ∧ t.srv.code = 0 ∧ surveyUntouched s t) ∧
        (s.srv.op = 3 → run (some b) = .next { s with srv := { s.srv with state := .storing, cand := some (v, b), changed := 0 } }) ∧
        (s.srv.op = 2 → s.live = false →
          run (some b) = .next (State.applyImage { s with srv := { s.srv with state := .applying, cand := some (v, b), changed := 0 } } v)) ∧
        (s.srv.op = 2 → s.live = true → (∀ p ∈ changedParts s.sv v, s.sv.valid p = false) →
          ∃ t, run (some b) = .next t ∧ t.srv.state = .waiting ∧ t.srv.cand = some (v, b) ∧ t.parts = s.parts ∧ t.srv.applied = s.srv.applied) ∧
        (s.srv.op = 2 → s.live = true → (∃ p ∈ changedParts s.sv v, s.sv.valid p = true) →
          ∃ t, run (some b) = .next t ∧ t.srv.state = .draining ∧ t.srv.cand = some (v, b) ∧ t.srv.applied = s.srv.applied ∧
            ∀ p, (p ∈ changedParts s.sv v → s.sv.valid p = true → (t.part p).draining = true) ∧
              (p ∉ changedParts s.sv v → (t.part p).draining = (s.part p).draining)))

/-- R46, R47, R52: the rest of a re-survey: the pool check when the drained partitions are idle, and again at a window of 150 µs or more; a shorter
window applies nothing; at the end of the apply partitions fetch again; at the end of the storing the image lies in flash, the one before it is kept. -/
def Claims.ReSurveyProceeds : Prop :=
  ∀ (s : State) (v : Survey) (b : List Byte), s.srv.cand = some (v, b) → s.dpt.up = true →
    (s.srv.state = .draining → (∃ p ∈ setBits 16 s.srv.drain, s.partIdle p = false) → exec .surveyDrainEnd s = .next s) ∧
    (s.srv.state = .draining → (∀ p ∈ setBits 16 s.srv.drain, s.partIdle p = true) → s.poolsFit v = true →
      exec .surveyDrainEnd s = .next { s with srv := { s.srv with state := .waiting } }) ∧
    (s.srv.state = .draining → (∀ p ∈ setBits 16 s.srv.drain, s.partIdle p = true) → s.poolsFit v = false →
      ∃ t, exec .surveyDrainEnd s = .next t ∧ t.srv.state = .failed ∧ t.srv.code = 0x16 ∧ t.srv.drain = 0 ∧
        (∀ p, (t.part p).draining = false) ∧ surveyUntouched s t) ∧
    (∀ len, s.srv.state = .waiting → len < 150000 → s.windowApply len = s) ∧
    (∀ len, s.srv.state = .waiting → 150000 ≤ len → s.poolsFit v = true →
      s.windowApply len = State.applyImage { s with srv := { s.srv with state := .applying } } v) ∧
    (∀ len, s.srv.state = .waiting → 150000 ≤ len → s.poolsFit v = false →
      (s.windowApply len).srv.state = .failed ∧ (s.windowApply len).srv.code = 0x16 ∧ surveyUntouched s (s.windowApply len)) ∧
    (s.srv.state = .applying → ∃ t, exec .surveyApplyEnd s = .next t ∧ t.srv.state = .storing ∧ t.srv.drain = 0 ∧
      (∀ p, (t.part p).draining = false) ∧ t.srv.applied = s.srv.applied) ∧
    (s.srv.state = .storing → ∃ t, exec .surveyStoreEnd s = .next t ∧ t.flash = { s.flash with prev := s.flash.stored, stored := some b } ∧
      t.srv.state = .done ∧ t.srv.code = 0 ∧ t.srv.applied = s.srv.applied)

/-- R40, R53: what an apply does at least: the image is the applied one; its retired pages join flash's list, from which none goes; a core whose owner changes has
its workspace at zero, and a partition whose scratch ways change its scratch. -/
def Claims.ApplyTakesEffect : Prop :=
  ∀ (s : State) (v : Survey),
    let t := s.applyImage v
    t.srv.applied = some v ∧ t.srv.old = s.srv.applied ∧
    (∀ a, a ∈ s.flash.retired ∨ a ∈ v.retired → a ∈ t.flash.retired) ∧
    (∀ c < 576, s.sv.coreOwner c ≠ v.coreOwner c → ∀ a < 2 ^ 21, t.mem.ws.byte (wsKey c a) = 0#8) ∧
    (∀ c < 576, s.sv.coreOwner c = v.coreOwner c → ∀ a < 2 ^ 21, t.mem.ws.byte (wsKey c a) = s.mem.ws.byte (wsKey c a)) ∧
    (∀ p < 16, s.sv.scratch p ≠ v.scratch p → ∀ a < 2 ^ 28, t.mem.l2s.byte (l2sKey p a) = 0#8)

/-- R55, R57, R59: a COMMIT of a BASE and SIZE group: nothing while a set is pending; DRAIN while the partition drains; a SIZE that is no power of two from the
least to 65,536 or a base in the driver half is refused; where the range can be backed the shadows become the pending set. Neither the live set nor the shadows change. -/
def Claims.BaseSizeCommits : Prop :=
  (∀ (q p : Nat) (s : State),
    (∀ n < 8, PartAt q 2 p s → exec (.cmdRingCommit q n) s = .next (s.commitRange p n)) ∧
    (PartAt q 2 p s → exec (.cmdSumpCommit q) s = .next (s.commitRange p 8)) ∧
    (PartAt q 13 p s → exec (.fltRingCommit q) s = .next (s.commitRange p 9)) ∧
    (PartAt q 10 p s → exec (.ckwEringCommit q) s = .next (s.commitRange p 10))) ∧
  ∀ (p i : Nat) (s : State), i < 11 →
    let g := (s.part p).group i
    let t := s.commitRange p i
    let h := (t.part p).group i
    (g.pend ≠ none → t = s) ∧
    (g.pend = none → (s.part p).draining = true → h = { g with status := 4 }) ∧
    (g.pend = none → (s.part p).draining = false →
      (isPow2 g.shadow.size = false ∨ g.shadow.size < (if i = 10 then 16 else 64) ∨ 65536 < g.shadow.size ∨ bit g.shadow.base 55 = true) →
      h = { g with status := 2 }) ∧
    (g.pend = none → (s.part p).draining = false → isPow2 g.shadow.size = true → (if i = 10 then 16 else 64) ≤ g.shadow.size →
      g.shadow.size ≤ 65536 → bit g.shadow.base 55 = false → (s.back p i g.shadow.base (g.shadow.size * groupUnit i)).1 = 0 →
      h.pend = some g.shadow ∧ h.live = g.live ∧ h.shadow = g.shadow ∧ h.count = g.count)

/-- R55, R255, R280, R336: COMMIT of a seam group, an adit window and the cadence. -/
def Claims.OtherCommits : Prop :=
  (∀ (q p i : Nat) (s : State), PartAt q 5 p s → i < 256 → exec (.plcSeamCommit q i) s = .next (s.commitSeam p i)) ∧
  (∀ (p i : Nat) (s : State), (s.seam p i).grp.pend ≠ none → s.commitSeam p i = s) ∧
  (∀ (p i : Nat) (s : State), (s.seam p i).grp.pend = none → (s.part p).draining = true →
    ((s.commitSeam p i).seam p i).grp = { (s.seam p i).grp with status := 4 }) ∧
  (∀ (q p a perm lo hi : Nat) (s : State), PartAt q 3 p s → a < 256 → s.sv.outWin a = some (p, perm, lo, hi) →
    let g := Tab.get { live := {}, shadow := {} } (s.part p).adits a
    let w := g.shadow
    let answers := fun (h : Machine.Group AditSet) => ∃ t, exec (.xltAditCommit q a) s = .next t ∧
      Tab.get { live := {}, shadow := {} } (t.part p).adits a = h
    let dev := bits w.target 29 16
    let good := lo ≤ dev ∧ dev ≤ hi ∧ w.target % 8 &&& (7 - perm % 8) = 0
    (g.pend ≠ none → exec (.xltAditCommit q a) s = .next s) ∧
    (g.pend = none → (s.part p).draining = true → answers { g with status := 4 }) ∧
    (g.pend = none → (s.part p).draining = false → w.limit ≤ w.base → answers { g with status := 1 }) ∧
    (g.pend = none → (s.part p).draining = false → w.base < w.limit → ¬ good → answers { g with status := 3 }) ∧
    (g.pend = none → (s.part p).draining = false → w.base < w.limit → good → answers { g with pend := some w })) ∧
  (∀ (q : Nat) (s : State), GlobalAt q 6 s →
    let c := s.tim.cad
    (c.pend ≠ none → exec (.timCadCommit q) s = .next s) ∧
    (c.pend = none → c.shadow.check s.sv ≠ 0 → ∃ t, exec (.timCadCommit q) s = .next t ∧
      t.tim.cad = { c with status := c.shadow.check s.sv }) ∧
    (c.pend = none → c.shadow.check s.sv = 0 → ∃ t x, exec (.timCadCommit q) s = .next t ∧ t.tim.cad.pend = some (some x) ∧
      x.period = c.shadow.period ∧ x.count = c.shadow.count ∧ (∀ k < x.count, x.slot k = c.shadow.slot k) ∧
      t.tim.cad.live = c.live ∧ t.tim.cad.shadow = c.shadow))

/-- R55, R57, R59, R280: at a group's boundary the pending set becomes live in one step: COUNT rises by 1, STATUS is OK, and a ring starts
over; before the boundary (a ring with started commands, an adit window with a transfer in flight) nothing changes. -/
def Claims.CommitSwaps : Prop :=
  let swapped := fun {α : Type} (g h : Machine.Group α) (x : α) =>
    h.live = x ∧ h.pend = none ∧ h.count = (g.count + 1) % 65536 ∧ h.status = 0 ∧ h.shadow = g.shadow
  (∀ (p n : Nat) (s : State) (b : BaseSize), n < 8 → (s.ring p n).grp.pend = some b →
    ((s.ring p n).started ≠ [] → exec (.commitSwap (.ring p n)) s = .next s) ∧
    ((s.ring p n).started = [] → ∃ t, exec (.commitSwap (.ring p n)) s = .next t ∧ swapped (s.ring p n).grp (t.ring p n).grp b ∧
      (t.ring p n).head = 0 ∧ (t.ring p n).tail = 0 ∧ (t.ring p n).next = 0 ∧ (t.ring p n).guilty = false)) ∧
  (∀ (p : Nat) (s : State) (b : BaseSize),
    ((s.part p).sump.pend = some b → (∀ e ∈ (s.part p).cmds, e.2.wait ≠ .sumpSpace) → ∃ t, exec (.commitSwap (.sump p)) s = .next t ∧
      swapped (s.part p).sump (t.part p).sump b ∧ (t.part p).sumpHead = 0 ∧ (t.part p).sumpTail = 0) ∧
    ((s.part p).fltGrp.pend = some b → (s.part p).flt.hold = [] → (s.part p).flt.ovEssential + (s.part p).flt.ovInfo = 0 →
      ∃ t, exec (.commitSwap (.fault p)) s = .next t ∧
      swapped (s.part p).fltGrp (t.part p).fltGrp b ∧ (t.part p).flt.head = 0 ∧ (t.part p).flt.tail = 0 ∧ (t.part p).flt.sq = 0) ∧
    ((s.part p).en.ering.pend = some b → (s.part p).en.hold = [] → (s.part p).en.waiting = [] →
      ∃ t, exec (.commitSwap (.energy p)) s = .next t ∧
      swapped (s.part p).en.ering (t.part p).en.ering b ∧ (t.part p).en.head = 0 ∧ (t.part p).en.tail = 0)) ∧
  (∀ (p a : Nat) (s : State) (b : AditSet),
    let g := Tab.get { live := {}, shadow := {} } (s.part p).adits a
    g.pend = some b →
    (s.aditBusy p a = true → exec (.commitSwap (.adit p a)) s = .next s) ∧
    (s.aditBusy p a = false → ∃ t, exec (.commitSwap (.adit p a)) s = .next t ∧
      swapped g (Tab.get { live := {}, shadow := {} } (t.part p).adits a) b)) ∧
  (∀ (p i : Nat) (s : State) (m : SeamSet), (s.seam p i).grp.pend = some m →
    let go := (s.tim.cad.window ≠ none ∨ s.tim.cad.live = none) ∧ s.moveDue p i = false ∧ (s.seam p i).active = false ∧ s.seamQuiet p i = true
    (¬ go → exec (.commitSwap (.seam p i)) s = .next s) ∧
    (go → ∃ t, exec (.commitSwap (.seam p i)) s = .next t ∧ swapped (s.seam p i).grp (t.seam p i).grp m ∧
      (t.seam p i).goal = some ({ chans := m.mask, stride := m.stride }, 0))) ∧
  (∀ (s : State) (e : Nat) (x : CadSet), s.tim.cad.pend = some (some x) → s.tim.cad.ended s.tim.now = some e →
    ∃ t, exec (.commitSwap .cadence) s = .next t ∧ t.tim.cad.live = some x ∧ t.tim.cad.pend = none ∧
      t.tim.cad.count = (s.tim.cad.count + 1) % 65536 ∧ t.tim.cad.status = 0)

/-- R289, R292, R294: a ring command that cannot start now changes nothing; one whose slots do not translate, are poisoned or run past a buffer's
end, or whose header or reserved bytes break a rule, does nothing but wait to retire with its code. (GRAPH_LAUNCH lets stalled engines act.) -/
def Claims.RingCommandsStart : Prop :=
  ∀ r ∈ ringRows, ∀ (p n : Nat) (c : List Byte) (s : State),
    let b := cmdBytes r.op c
    let u := s.begin p n b
    let after : State → State := if r.op = 2 ∨ r.op = 4 ∨ r.op = 5 then State.engineActions else id
    (s.canStart p n b = false → exec (r.row p n c) s = .next (after s)) ∧
    (s.canStart p n b = true → (s.slotCode p n b).1 ≠ 0 →
      exec (r.row p n c) s = .next (after (u.2.fail p u.1 (s.slotCode p n b).1 (s.slotCode p n b).2))) ∧
    (s.canStart p n b = true → (s.slotCode p n b).1 = 0 → cmdBad b r.flags r.min r.used = true →
      exec (r.row p n c) s = .next (after (u.2.fail p u.1 0x01)))

/-- R284, R289: what the start of a command does: its slots are taken (with those of the commands behind a wait that a drain
gave back, which have run, R51), it is the last started of its ring, under a number of its own. -/
def Claims.CommandBegins : Prop :=
  ∀ (p n : Nat) (b : List Byte) (s : State),
    let k := (s.part p).nextK
    let r := s.ring p n
    let t := (s.begin p n b).2
    (s.begin p n b).1 = k ∧ (t.cmd p k).bytes = b ∧ (t.cmd p k).ring = n ∧ Ended t p k 0 ∧
    (t.ring p n).started = r.started ++ [k] ∧ (t.part p).nextK = k + 1 ∧
    (r.frames = [] → r.past = none →
      (t.ring p n).next = (r.next + min (lenOf b) r.room) % two32 ∧ (t.cmd p k).slots = min (lenOf b) r.room) ∧
    (∀ e, r.frames = [] → r.past = some e → (t.ring p n).next = e % two32 ∧ (t.ring p n).past = none) ∧
    (∀ j, j ≠ k → t.cmd p j = s.cmd p j) ∧ (∀ m, m ≠ n → t.ring p m = s.ring p m) ∧
    t.mem = s.mem ∧ t.gangs = s.gangs ∧ t.ports = s.ports

/-- R263, R292, R378: a placement command, a RED_JOIN or a LEAVE that cannot start changes nothing; one that cannot be read, or whose header is bad, does nothing but wait to retire with its code. -/
def Claims.PlacementCommandsStart : Prop :=
  ∀ r ∈ placeRows, ∀ (p n : Nat) (c : List Byte) (s : State),
    let b := cmdBytes r.2.1 (r.2.2 c)
    let u := s.begin p n b
    (s.canStart p n b = false → exec (r.1 p n c) s = .next s) ∧
    (s.canStart p n b = true → (s.slotCode p n b).1 ≠ 0 →
      exec (r.1 p n c) s = .next (u.2.fail p u.1 (s.slotCode p n b).1 (s.slotCode p n b).2)) ∧
    (s.canStart p n b = true → (s.slotCode p n b).1 = 0 → cmdBad b 0 0 [(16, 48)] = true → exec (r.1 p n c) s = .next (u.2.fail p u.1 0x01))

/-- R284, R285: a doorbell of a value at or ahead of TAIL and at most SIZE ahead of HEAD sets TAIL; the same value changes nothing; any other, and one of a function
not bound to the partition, changes nothing but the count. -/
def Claims.DoorbellsMoveTail : Prop :=
  ∀ (q p n v : Nat) (s : State), p < 16 → n < 8 → v < two32 → q < 32 → s.hears q = true → s.rel 3 = true →
    let r := s.ring p n
    let fill := modSub two32 r.tail r.head
    let d := modSub two32 v r.tail
    let counted : State := s.updPart p fun x => { x with dbBad := satAdd 0xFFFFFFFF x.dbBad 1 }
    ((s.bound q).contains p = false → exec (.cmdDoorbell q p n v) s = .next counted) ∧
    ((s.bound q).contains p = true → d = 0 → exec (.cmdDoorbell q p n v) s = .next s) ∧
    ((s.bound q).contains p = true → d ≠ 0 → ¬ (fill ≤ r.grp.live.size ∧ d ≤ r.grp.live.size - fill) →
      exec (.cmdDoorbell q p n v) s = .next counted) ∧
    ((s.bound q).contains p = true → d ≠ 0 → fill ≤ r.grp.live.size → d ≤ r.grp.live.size - fill → r.skip = 0 →
      ∃ t, exec (.cmdDoorbell q p n v) s = .next t ∧ t.ring p n = { r with
        tail := v, bells := r.bells ++ [(v, s.tim.now)], wasFull := r.wasFull || fill + d == r.grp.live.size })

/-- R284 to R288, R311, R316, R317, R452, R477, R481: ring enables, RESUME, GUILTY and the HEAD registers. -/
def Claims.RingControlRows : Prop :=
  (∀ (q p n : Nat) (s : State), PartAt q 2 p s → n < 8 →
    (∀ on, ∃ t, exec (.ringEnable q n on) s = .next t ∧ t.ring p n = { s.ring p n with enable := on && bit (s.sv.levels p) n }) ∧
    ((s.ring p n).guilty = true → ∃ t, exec (.ringResume q n) s = .next t ∧
      t.ring p n = { s.ring p n with guilty := false, resumed := true }) ∧
    ((s.ring p n).guilty = false → ∃ t, exec (.ringResume q n) s = .next t ∧ t.ring p n = s.ring p n) ∧
    exec (.guilty q n) s = .next (s.guilty p n 3)) ∧
  (∀ (q p v : Nat) (s : State), PartAt q 2 p s → (∀ e ∈ (s.part p).cmds, e.2.wait ≠ .sumpSpace) →
    exec (.cmdSumpHead q v) s = .next (s.updPart p fun x => { x with sumpHead := v % two32 })) ∧
  (∀ (q p v : Nat) (s : State), PartAt q 13 p s → (s.part p).flt.hold = [] → (s.part p).flt.ovEssential + (s.part p).flt.ovInfo = 0 →
    exec (.fltRingHead q v) s = .next (s.updPart p fun x => { x with flt := { x.flt with head := v % two32 } })) ∧
  (∀ (q p v : Nat) (s : State), PartAt q 10 p s → (s.part p).en.hold = [] → (s.part p).en.waiting = [] →
    exec (.ckwEringHead q v) s = .next (s.updPart p fun x => { x with en := { x.en with head := v % two32 } })) ∧
  (∀ (q v : Nat) (s : State), s.hears q = true → s.rel 1 = true → s.isPrimaryPf q = true → s.flt.ring.hold = [] →
    s.flt.ring.ovEssential + s.flt.ring.ovInfo = 0 →
    exec (.fltDringHead q v) s = .next { s with flt := { s.flt with ring := { s.flt.ring with head := v % two32 } } })

/-- R287, R289, R294, R315: a command retires when what it waits for has happened and none before it is left; its slots are freed, RETIRED rises by 1, an error is
latched, the first with its details; one that still waits for a time, a gate, its word or a reduction stays. -/
def Claims.CommandsRetire : Prop :=
  (∀ (p k : Nat) (s : State), ((s.part p).cmds.any fun e => e.1 == k) = true → s.frontOn = true → (s.cmd p k).wait = .done →
    s.mayRetire p k = true → exec (.commandRetire p k) s = .next (s.retire p k).engineActions) ∧
  (∀ (p k : Nat) (s : State), ((s.part p).cmds.any fun e => e.1 == k) = true → s.frontOn = true →
    (∃ t l v i, (s.cmd p k).wait ∈ [.time t, .gate t, .sem l v, .red i, .sumpSpace, .tally, .word, .xport]) →
    exec (.commandRetire p k) s = .next s.engineActions) ∧
  (∀ (p n k m : Nat) (s : State),
    let t := s.freeSlots p n k m
    (t.ring p n).head = ((s.ring p n).head + m) % two32 ∧
    (t.ring p n).retired = ((s.ring p n).retired + 1) % two64 ∧ k ∉ (t.ring p n).started ∧
    (∀ j ∈ (s.ring p n).started, j ≠ k → j ∈ (t.ring p n).started) ∧ (t.ring p n).tail = (s.ring p n).tail) ∧
  (∀ (e : RingErr) (c : Cmd) (code addr info : Nat),
    (e.count = 0 → e.latch c code addr info = { sq := c.seq, op := c.op, code := code, count := 1, addr := addr, info := info }) ∧
    (e.count ≠ 0 → e.latch c code addr info = { e with count := min (e.count + 1) 0xFFFF }))

/-- R309 to R311: COMPLETE takes its Record Time and writes its record: at DEST, or on the sump where DEST does not lead to the partition's own port or device
memory; with no sump it is lost and counted, with a full one it waits. The record has the layout of R310. -/
def Claims.CompleteWritesRecord : Prop :=
  (∀ (p n : Nat) (c : List Byte) (s : State) (b : List Byte) (k : Nat) (u : State), Begins 0x0F 2 0 [(16, 10), (28, 4)] p n c s b k u →
    bit (u8 b 1) 1 = false →
    exec (.complete p n c) s = .next ((u.updCmd p k fun c => { c with stamp := s.tim.now }).complete p k).semCheck) ∧
  (∀ (p k : Nat) (s : State),
    let c := s.cmd p k
    let va := u64 c.bytes 16
    let away := s.divert p k
    (va % 64 ≠ 0 → s.complete p k = away) ∧
    (s.xlate (tlbCp p) p (u8 c.bytes 24) va = none → s.complete p k = away) ∧
    (∀ x, s.xlate (tlbCp p) p (u8 c.bytes 24) va = some x → x.w = false → s.complete p k = away) ∧
    (∀ x i a n, s.xlate (tlbCp p) p (u8 c.bytes 24) va = some x → x.loc = .host i a n → i ≠ s.sv.port p → s.complete p k = away) ∧
    (∀ x a, s.xlate (tlbCp p) p (u8 c.bytes 24) va = some x → x.w = true → va % 64 = 0 → (x.loc = .dev a ∨ ∃ o r, x.loc = .host (s.sv.port p) o r) →
      s.complete p k = (s.cpWrite p c.ring (s.cmdTally p k) (u8 c.bytes 24) va (s.completion p k false)).completed p k) ∧
    ((s.part p).sump.live.size = 0 →
      Ended away p k c.code ∧ (away.part p).sumpLost = min ((s.part p).sumpLost + 1) 0xFFFFFFFF) ∧
    ((s.part p).sump.live.size ≠ 0 → (s.part p).sump.live.size ≤ modSub two32 (s.part p).sumpTail (s.part p).sumpHead →
      away = s.await p k .sumpSpace)) ∧
  ∀ (p k : Nat) (s : State) (div : Bool),
    let c := s.cmd p k
    let r := s.ring p c.ring
    let d := s.completion p k div
    d.length = 64 ∧ u32 d 0 = u32 c.bytes 8 ∧ u16 d 4 = b2n (r.err.count != 0) + 2 * b2n div + 4 * b2n r.resumed ∧
    u8 d 6 = p % 256 ∧ u8 d 7 = c.ring % 256 ∧ u32 d 8 = u32 c.bytes 4 ∧ u32 d 12 = u32 c.bytes 28 ∧ u64 d 16 = c.stamp % two64 ∧
    u64 d 24 = (r.retired + 1) % two64 ∧ u32 d 32 = r.err.sq % two32 ∧ u8 d 36 = r.err.op % 256 ∧ u8 d 37 = r.err.code % 256 ∧
    u16 d 38 = r.err.count % 65536 ∧ u64 d 40 = r.err.addr % two64 ∧ u32 d 48 = r.err.info % two32 ∧ u32 d 52 = 0 ∧ u64 d 56 = u64 c.bytes 16

/-- R295 to R297: a LAUNCH whose fields, stage, conveyors and slot are right, and whose argument block can be read, waits for its gangs: as many as its threads
need, with the registers, workspace, bindings and arguments that it names; with no threads it retires; each broken rule has its code. -/
def Claims.LaunchStarts : Prop :=
  (∀ (p n : Nat) (c : List Byte) (s : State) (b : List Byte) (k : Nat) (u : State),
    Begins 0x01 1 0 [(16, 41), (64, 64)] p n c s b k u →
    let run := exec (.launch p n c) s
    let slot := u8 b 17
    let badly := launchBad b || (launchBinds b).any (u.bindBad p (u8 b 16))
    let known := (u.stg p (u8 b 16)).declared && (launchBinds b).all (fun e => !bit e.2.2 0 || (u.conv p e.2.1).declared) && u.asOn p slot
    (badly = true → run = .next (u.fail p k 0x01)) ∧
    (badly = false → known = false → run = .next (u.fail p k 0x02)) ∧
    (badly = false → known = true → u32 b 20 = 0 → run = .next u) ∧
    (badly = false → known = true → u32 b 20 ≠ 0 →
      let a := u.cpRead p k slot (u64 b 48) (4 * u8 b 46)
      let m := a.2.cpRead p k slot (u64 b 48 + 256) (8 * u8 b 47)
      ((a.1 = none ∨ m.1 = none) → run = .next (m.2.fail p k 0x03 (u64 b 48))) ∧
      ∀ x y, a.1 = some x → m.1 = some y →
        ((x.2 || y.2) = true → run = .next (m.2.fail p k 0x04 (u64 b 48))) ∧
        ((x.2 || y.2) = false → run = .next (m.2.launch p k b (padTo 256 x.1 ++ y.1))))) ∧
  ∀ (p k : Nat) (b args : List Byte) (s : State),
    let c := (s.launch p k b args).cmd p k
    c.wait = .gangs ∧ c.gangs = (u32 b 20 + 31) / 32 ∧ c.args = args ∧ c.kern.part = p ∧ c.kern.cmd = k ∧ c.kern.vregs = 8 * u8 b 18 ∧
    c.kern.slot = u8 b 17 ∧ c.kern.wsBase = u32 b 32 ∧ c.kern.wsSize = u32 b 36 ∧ c.kern.split = u8 b 19 ∧ c.kern.stream = u16 b 44 ∧
    c.kern.stage = u8 b 16 ∧ c.kern.tally = s.cmdTally p k ∧ (s.launch p k b args).mem.dev = s.mem.dev

/-- R312 to R314: GRAPH_PATCH with the expected version stores the next one, whose nodes are those read and, outside them, the current ones; DELETE takes the current
one away; another version is refused. GRAPH_LAUNCH starts the nodes of a stored version that depend on none. -/
def Claims.GraphCommands : Prop :=
  (∀ (p n : Nat) (c : List Byte) (s : State) (b : List Byte) (k : Nat) (u : State),
    Begins 0x03 0 0 [(16, 14), (32, 8)] p n c s b k u →
    let run := exec (.graphPatch p n c) s
    let g := u16 b 16
    let nodes := u16 b 18
    let first := u16 b 20
    let count := u16 b 22
    let x := u.graph p g
    let cur := x.current.getD 0
    let old := match x.current with | some v => u.graphImages p g v | none => []
    let expected := u32 b 24 = 0xFFFFFFFF ∨ u32 b 24 = cur
    g ≤ 255 →
    (u8 b 28 = 1 → x.current = none → run = .next (u.fail p k 0x02)) ∧
    (u8 b 28 = 1 → x.current ≠ none → ¬ expected → run = .next (u.fail p k 0x09)) ∧
    (u8 b 28 = 1 → x.current ≠ none → expected → ∃ t, run = .next t ∧ (t.graph p g).current = none ∧ Ended t p k 0) ∧
    (u8 b 28 = 0 → count = 0 → run = .next u) ∧
    (u8 b 28 = 0 → count ≠ 0 → 0 < nodes → nodes ≤ 4096 → first + count ≤ nodes → ¬ expected → run = .next (u.fail p k 0x09)) ∧
    (u8 b 28 = 0 → count ≠ 0 → 0 < nodes → nodes ≤ 4096 → first + count ≤ nodes → expected → u.asOn p (u8 b 29) = true →
      ∀ d v, u.cpRead p k (u8 b 29) (u64 b 32) (256 * count) = (some (d, false), v) →
      (∀ i < nodes, (first ≤ i ∧ i < first + count) ∨ i < old.length) →
      (∀ i < count, nodeBad (first + i) (slice d (256 * i) 256) = false) →
      ∃ t, (run = .next t ∨ run = .next (v.fail p k 0x07)) ∧ (t.graphNodes p ≤ 65536 → run = .next t) ∧
        (t.graph p g).current = some ((cur + 1) % two32) ∧
        t.graphImages p g ((cur + 1) % two32) = (List.range nodes).map fun i =>
          if first ≤ i ∧ i < first + count then slice d (256 * (i - first)) 256 else old.getD i [])) ∧
  (∀ (p n : Nat) (c : List Byte) (s : State) (b : List Byte) (k : Nat) (u : State),
    Begins 0x02 1 0 [(16, 2), (20, 4)] p n c s b k u →
    let run := exec (.graphLaunch p n c) s
    let x := u.graph p (u16 b 16)
    (255 < u16 b 16 → run = .next (u.fail p k 0x01).engineActions) ∧
    (u16 b 16 ≤ 255 → x.current = none → run = .next (u.fail p k 0x02).engineActions) ∧
    ∀ cur, u16 b 16 ≤ 255 → x.current = some cur →
      let v := if u32 b 20 = 0 then cur else u32 b 20
      ((x.vers.find? fun y => y.version == v) = none → run = .next (u.fail p k 0x09).engineActions) ∧
      ∀ y, (x.vers.find? fun y => y.version == v) = some y →
        run = .next ((u.updCmd p k fun c => { c with wait := .nodes, graph := u16 b 16, version := y.id, nodesLeft := List.range y.nodes.length
                                                     nodesDue := List.range y.nodes.length }).startNodes p k).engineActions)

/-- R120, R301, R302: FENCE_SIGNAL sets the word to the larger of it and VALUE; FENCE_WAIT waits until the word is at least VALUE, and for a held channel's word (R223); a poisoned word is POISON;
TIME_WAIT waits for Record Time, GATE_WAIT for its count of gate events. -/
def Claims.FencesAndWaits : Prop :=
  (∀ (p n : Nat) (c : List Byte) (s : State) (b : List Byte) (k : Nat) (u : State),
    Begins 0x06 2 0 [(16, 9), (32, 8)] p n c s b k u →
    let run := exec (.fenceSignal p n c) s
    (u64 b 16 % 8 ≠ 0 → run = .next (u.fail p k 0x01)) ∧
    (u64 b 16 % 8 = 0 → u.asOn p (u8 b 24) = false → run = .next (u.fail p k 0x02)) ∧
    (u64 b 16 % 8 = 0 → u.asOn p (u8 b 24) = true → u.semAt p (u8 b 24) (u64 b 16) = none → run = .next (u.fail p k 0x03 (u64 b 16))) ∧
    ∀ a, u64 b 16 % 8 = 0 → u.asOn p (u8 b 24) = true → u.semAt p (u8 b 24) (u64 b 16) = some a → u.earlierDone p k = true → bit (u8 b 1) 1 = false →
      (u.poisonAt a = true → run = .next (u.fail p k 0x04 (u64 b 16))) ∧
      (u.poisonAt a = false →
        run = .next ((((u.homeRead (u.req p (u.cmdTally p k) 2) a).homeWrite (u.req p (u.cmdTally p k) 2) a
          (leBytes 8 (max (leVal (u.devRead a 8)) (u64 b 32)))).await p k .done).semCheck))) ∧
  (∀ (p n : Nat) (c : List Byte) (s : State) (b : List Byte) (k : Nat) (u : State),
    Begins 0x07 0 0 [(16, 9), (32, 8)] p n c s b k u →
    ∀ a < 2 ^ 41, u64 b 16 % 8 = 0 → u.asOn p (u8 b 24) = true → u.semAt p (u8 b 24) (u64 b 16) = some a →
    let v := u.homeRead (u.req p (u.cmdTally p k) 2) a
    (u64 b 32 = 0 → exec (.fenceWait p n c) s = .next u) ∧
    (u64 b 32 ≠ 0 → v.lineHeld a = true → exec (.fenceWait p n c) s = .next (v.await p k (.sem a (u64 b 32)))) ∧
    (u64 b 32 ≠ 0 → v.lineHeld a = false → v.poisonAt a = true → ∃ t, exec (.fenceWait p n c) s = .next t ∧ Ended t p k 0x04 ∧ (t.cmd p k).addr = u64 b 16) ∧
    (u64 b 32 ≠ 0 → v.lineHeld a = false → v.poisonAt a = false → u64 b 32 ≤ leVal (v.devRead a 8) → ∃ t, exec (.fenceWait p n c) s = .next t ∧ Ended t p k 0) ∧
    (u64 b 32 ≠ 0 → v.lineHeld a = false → v.poisonAt a = false → leVal (v.devRead a 8) < u64 b 32 →
      ∃ t, exec (.fenceWait p n c) s = .next t ∧ (t.cmd p k).wait = .sem a (u64 b 32))) ∧
  (∀ (p n : Nat) (c : List Byte) (s : State) (b : List Byte) (k : Nat) (u : State),
    Begins 0x0B 0 0 [(16, 8)] p n c s b k u →
    (u64 b 16 ≤ s.tim.now → exec (.timeWait p n c) s = .next u) ∧
    (s.tim.now < u64 b 16 → exec (.timeWait p n c) s = .next (u.await p k (.time (u64 b 16))))) ∧
  (∀ (p k t : Nat) (s : State), (s.cmd p k).wait = .time t →
    (t ≤ s.tim.now → exec (.timeWaitReached p k) s = .next (s.await p k .done)) ∧
    (s.tim.now < t → exec (.timeWaitReached p k) s = .next s)) ∧
  (∀ (p n : Nat) (c : List Byte) (s : State) (b : List Byte) (k : Nat) (u : State),
    Begins 0x0C 0 0 [(16, 2)] p n c s b k u →
    (u16 b 16 = 0 → exec (.gateWait p n c) s = .next u) ∧
    (u16 b 16 ≠ 0 → exec (.gateWait p n c) s = .next (u.await p k (.gate (u16 b 16)))))

/-- R303 to R306: the test of COND and LOOP; a COND whose test fails retires, one whose test holds passes over the next command; a LOOP whose body is not all visible waits, and
runs its body again until its count or its test ends it; a CALL runs its buffer and returns; the fifth level of either is LIMIT. -/
def Claims.TestsLoopsAndCalls : Prop :=
  (∀ (b : List Byte) (w : Nat), u8 b 25 ≤ 5 →
    let m := w &&& u64 b 32
    let v := u64 b 40
    testHolds b w = match u8 b 25 with
      | 0 => decide (m = v) | 1 => decide (m ≠ v) | 2 => decide (m < v) | 3 => decide (v ≤ m)
      | 4 => decide (sgn 64 m < sgn 64 v) | _ => decide (sgn 64 v ≤ sgn 64 m)) ∧
  (∀ (p n : Nat) (c : List Byte) (s : State) (b : List Byte) (k : Nat) (u : State),
    Begins 0x08 0 0 [(16, 12), (32, 16)] p n c s b k u →
    let run := exec (.cond p n c) s
    ((5 < u8 b 25 ∨ u64 b 16 % 8 ≠ 0) → run = .next (u.fail p k 0x01)) ∧
    (u8 b 25 ≤ 5 → u64 b 16 % 8 = 0 → u.asOn p (u8 b 24) = true → u16 b 26 = 0 → run = .next u) ∧
    ∀ w v, u8 b 25 ≤ 5 → u64 b 16 % 8 = 0 → u.asOn p (u8 b 24) = true → u16 b 26 ≠ 0 → u.testRead p k = .word w v →
      (testHolds b w = false → run = .next (v.await p k .done)) ∧
      (testHolds b w = true → run = .next (v.skipNext p k (u16 b 26)))) ∧
  (∀ (p k : Nat) (s : State),
    let n := (s.cmd p k).ring
    let r := s.ring p n
    let m := s.lenAt p n r.next
    r.frames = [] → m ≤ modSub two32 r.tail r.next → modSub two32 r.tail r.next ≠ 0 →
      Ended (s.skipNext p k 1) p k (s.cmd p k).code ∧ ((s.skipNext p k 1).ring p n).next = (r.next + m) % two32 ∧
      ((s.skipNext p k 1).cmd p k).slots = (s.cmd p k).slots + m ∧ ((s.skipNext p k 1).ring p n).skip = 0 ∧
      ((s.skipNext p k 1).ring p n).retired = r.retired) ∧
  (∀ (p n : Nat) (c : List Byte) (s : State) (b : List Byte) (k : Nat) (u : State),
    Begins 0x09 0 0 [(16, 32)] p n c s b k u →
    let run := exec (.loop p n c) s
    let r := u.ring p n
    let span := u.span p n (u16 b 26) r.pos
    let small := span.1 ≤ r.grp.live.size - min (lenOf b) r.grp.live.size
    let fits := callOf r.frames ≠ none ∨ (small ∧ span.2 = true)
    (u8 b 25 = 255 ∨ (u8 b 25 ≤ 5 ∧ u64 b 16 % 8 = 0 ∧ u.asOn p (u8 b 24) = true)) →
    ((u32 b 28 = 0 ∨ u16 b 26 = 0) → run = .next (u.skipNext p k (u16 b 26))) ∧
    (u32 b 28 ≠ 0 → u16 b 26 ≠ 0 → callOf r.frames = none → ¬ small → run = .next (u.fail p k 0x01)) ∧
    (u32 b 28 ≠ 0 → u16 b 26 ≠ 0 → callOf r.frames = none → small → span.2 = false → run = .next (u.await p k .fit)) ∧
    (u32 b 28 ≠ 0 → u16 b 26 ≠ 0 → fits → 4 ≤ r.loops → run = .next ((u.updCmd p k fun c => { c with code := 0x07 }).skipNext p k (u16 b 26))) ∧
    (u32 b 28 ≠ 0 → u16 b 26 ≠ 0 → fits → r.loops < 4 → ∃ t, run = .next t ∧
      (t.ring p n).frames = .loop k r.pos r.pos (u16 b 26) 0 :: r.frames ∧ (t.cmd p k).wait = .loopEnd)) ∧
  (∀ (p k i st a l m : Nat) (t : List Frame) (s : State),
    let n := (s.cmd p k).ring
    let b := (s.cmd p k).bytes
    (s.ring p n).frames = .loop i st a l m :: t →
    (u32 b 28 ≠ 0xFFFFFFFF → u32 b 28 ≤ m + 1 → ((s.iterate p k).ring p n).frames.length = t.length ∧ Ended (s.iterate p k) p k 0) ∧
    (¬ (u32 b 28 ≠ 0xFFFFFFFF ∧ u32 b 28 ≤ m + 1) → u8 b 25 = 255 →
      ((s.iterate p k).ring p n).frames = .loop i st st (u16 b 26) (m + 1) :: t ∧ ((s.iterate p k).cmd p k).wait = .loopEnd)) ∧
  (∀ (p n : Nat) (c : List Byte) (s : State) (b : List Byte) (k : Nat) (u : State),
    Begins 0x0A 0 0 [(16, 9), (28, 4)] p n c s b k u →
    let run := exec (.ringCall p n c) s
    ((u64 b 16 % 64 ≠ 0 ∨ 2 ^ 20 < u32 b 28) → run = .next (u.fail p k 0x01)) ∧
    (u64 b 16 % 64 = 0 → u32 b 28 ≤ 2 ^ 20 → u.asOn p (u8 b 24) = true → u32 b 28 = 0 → run = .next u) ∧
    (u64 b 16 % 64 = 0 → u32 b 28 ≤ 2 ^ 20 → u.asOn p (u8 b 24) = true → u32 b 28 ≠ 0 → 4 ≤ (u.ring p n).calls → run = .next (u.fail p k 0x07)) ∧
    (u64 b 16 % 64 = 0 → u32 b 28 ≤ 2 ^ 20 → u.asOn p (u8 b 24) = true → u32 b 28 ≠ 0 → (u.ring p n).calls < 4 → ∃ t, run = .next t ∧
      (t.ring p n).frames = .call k (u64 b 16) (u8 b 24) (u32 b 28) 0 :: (u.ring p n).frames ∧ (t.cmd p k).wait = .callEnd))

/-- R298: where byte i of row r of a descriptor comes from and goes to: row by row, or transposed by whole elements; the two source rows of a 4-bit transposition
interleave at the destination. -/
def Claims.CopyAddresses : Prop :=
  ∀ (d : Desc) (r i : Nat), 0 < d.row →
    let w := fun (a : Nat) => a % two64
    (d.xpose = 0 → i < d.row → d.at_ (r * d.row + i) = (w (d.src + r * d.sp + i), w (d.dst + r * d.dp + i), d.row - i)) ∧
    (∀ z e j, (d.xpose = 2 ∧ z = 1 ∨ d.xpose = 3 ∧ z = 2 ∨ d.xpose = 4 ∧ z = 4) → d.row % z = 0 → e < d.row / z → j < z →
      d.at_ (r * d.row + e * z + j) = (w (d.src + r * d.sp + e * z + j), w (d.dst + e * d.dp + r * z + j), z - j)) ∧
    (d.xpose = 1 → i < 2 * d.row → d.at_ (r * (2 * d.row) + i) = (w (d.src + 2 * r * d.sp + i / 2), w (d.dst + i * d.dp + r), 1))

/-- R191, R196, R299: one move of a copy within device memory: the bytes to the end of the row or of either line, by whole destination elements of 8 bytes, go from
the source's place to the destination's, of a poisoned source at most the one element that reads it, poisoned; part of an element is gathered first; a held channel is
waited for; a place that does not translate, or lacks permission, is a page fault before anything moves. -/
def Claims.CopyMoves : Prop :=
  ∀ (p k : Nat) (j : CopyJob) (s : State) (sa da m : Nat),
    let d := descOf j.desc
    let r := s.req p (s.cmdTally p k) 1
    let at_ := fun (slot va : Nat) => s.xlate j.tlb p slot va
    (s.cmd p k).op = 0x04 → d.srcSpace = 1 → d.dstSpace = 1 → d.xpose = 0 → j.head = [] → d.at_ j.pos = (sa, da, m) →
    (at_ d.srcSlot sa = none → s.copyStep p k j = .fault sa false false d.srcSlot) ∧
    (∀ x, at_ d.srcSlot sa = some x → x.r = false → s.copyStep p k j = .fault sa false true d.srcSlot) ∧
    (∀ x a, at_ d.srcSlot sa = some x → x.r = true → x.loc = .dev a →
      (at_ d.dstSlot da = none → s.copyStep p k j = .fault da true false d.dstSlot) ∧
      (∀ y, at_ d.dstSlot da = some y → y.w = false → s.copyStep p k j = .fault da true true d.dstSlot) ∧
      ∀ y b, at_ d.dstSlot da = some y → y.w = true → y.loc = .dev b →
        let v := s.copyLeaves j.tlb p d sa da
        let u := v.homeRead r a
        let cut := copyCut da m (128 - da % 128) (128 - sa % 128)
        let n := if v.poisonAt a then min cut.1 (8 - da % 8) else cut.1
        (v.writeHeld b = true → s.copyStep p k j = .hold) ∧
        (v.writeHeld b = false → v.lineHeld a = true → s.copyStep p k j = .hold) ∧
        (v.writeHeld b = false → v.lineHeld a = false → cut.2 = false →
          s.copyStep p k j = .moved n ((u.train j.tlb r d.stream d.srcSlot sa).putLoc r (.dev b) (u.devRead a n) (u.poisonAt a))) ∧
        (v.writeHeld b = false → v.lineHeld a = false → cut.2 = true → (s.cmd p k).copies.find? (fun y => y.idx == j.idx) = some j →
          ∃ t, s.copyStep p k j = .moved n t ∧ (t.copyAt p k j).head = u.devRead a n ∧ (t.copyAt p k j).bad = (j.bad || u.poisonAt a)))

/-- R293, R294, R298 to R300: COPY reads its descriptors and, if none breaks a rule, moves them; COPY_INLINE writes its own bytes; each broken rule has its code. -/
def Claims.CopyCommands : Prop :=
  (∀ (p n : Nat) (c : List Byte) (s : State) (b : List Byte) (k : Nat) (u : State), Begins 0x04 1 0 [(16, 9), (28, 4)] p n c s b k u →
    let run := fun (t : State) => exec (.copy p n c) s = .next t.engineActions
    let va := u64 b 16
    let count := u32 b 28
    ((va % 64 ≠ 0 ∨ 65536 < count) → run (u.fail p k 0x01)) ∧
    (va % 64 = 0 → count = 0 → run u) ∧
    (va % 64 = 0 → 0 < count → count ≤ 65536 → u.asOn p (u8 b 24) = false → run (u.fail p k 0x02)) ∧
    (va % 64 = 0 → 0 < count → count ≤ 65536 → u.asOn p (u8 b 24) = true →
      let f := u.cpRead p k (u8 b 24) va (64 * count)
      let bad := fun (d : List Byte) i => f.2.descCode p (slice d (64 * i) 64)
      (f.1 = none → run (f.2.fail p k 0x03 va)) ∧
      (∀ d, f.1 = some (d, true) → run (f.2.fail p k 0x04 va)) ∧
      (∀ d i, f.1 = some (d, false) → i < count → bad d i ≠ 0 → (∀ h < i, bad d h = 0) → run (f.2.fail p k (bad d i) (va + 64 * i) i)) ∧
      (∀ d, f.1 = some (d, false) → (∀ i < count, bad d i = 0) →
        run ((f.2.updCmd p k fun c => { c with
          wait := .copies, copies := (List.range count).map fun i => { idx := i, desc := slice d (64 * i) 64 } }).copyGo p k)))) ∧
  (∀ (p n : Nat) (c : List Byte) (s : State) (b : List Byte) (k : Nat) (u : State), Begins 0x05 1 0 [(16, 11), (32, 960)] p n c s b k u →
    let run := fun (t : State) => exec (.copyInline p n c) s = .next t.engineActions
    let dest := u64 b 16
    let space := u8 b 24
    let n := u8 b 26
    let fits := lenOf b ≥ (32 + n + 63) / 64 ∧ zeroAt b (32 + n) (b.length - (32 + n)) = true
    ((space = 0 ∨ 4 < space ∨ 240 < n ∨ ¬ fits) → run (u.fail p k 0x01)) ∧
    (0 < space → space ≤ 4 → n ≤ 240 → fits →
      let ctrl := space = 1 ∧ ∃ x h o, u.xlate (tlbCp p) p (u8 b 25) dest = some x ∧ x.loc = .ctrl h o
      ((ctrl ∧ (dest % 4 ≠ 0 ∨ n % 4 ≠ 0)) → run (u.fail p k 0x01)) ∧
      (space = 2 → u.scratchOpen p < dest + n → run (u.fail p k 0x01)) ∧
      (space ≠ 2 → u.asOn p (u8 b 25) = false → run (u.fail p k 0x02)) ∧
      (¬ (ctrl ∧ (dest % 4 ≠ 0 ∨ n % 4 ≠ 0)) → (space = 2 → dest + n ≤ u.scratchOpen p) → (space ≠ 2 → u.asOn p (u8 b 25) = true) →
        run ((u.updCmd p k fun c => { c with wait := .copies, copies := [{ idx := 0, desc := inlineDesc dest space (u8 b 25) n }] }).copyGo p k))))

/-- R251: RETRY lets a stalled engine walk again and ABORT ends its transfer with FAULT_ABORTED, once its record is written; an engine that is not pending is left alone. -/
def Claims.CopyFaultsResolve : Prop :=
  (∀ (q p e : Nat) (s : State), PartAt q 3 p s → e < 64 →
    (bit (s.faultPending p) e = true →
      exec (.copyRetry q e) s = .next (s.updEngine e fun x => { x with action := 1 }).engineActions ∧
      exec (.copyAbort q e) s = .next (s.updEngine e fun x => { x with action := 2 }).engineActions) ∧
    (bit (s.faultPending p) e = false → exec (.copyRetry q e) s = .next s.engineActions ∧ exec (.copyAbort q e) s = .next s.engineActions)) ∧
  ∀ (e p k : Nat) (s : State), (s.engine e).busy = some (p, k) → (s.engine e).stalled = true →
    ((s.engine e).recWait = true → s.engineAct e = s) ∧
    ((s.engine e).recWait = false → (s.engine e).action = 0 → s.engineAct e = s) ∧
    ((s.engine e).recWait = false → (s.engine e).action = 1 →
      s.engineAct e = (s.updEngine e fun y => { y with stalled := false, action := 0 }).copyGo p k) ∧
    ((s.engine e).recWait = false → (s.engine e).action = 2 →
      let idx := (((s.cmd p k).copies.find? fun j => j.engine == some e).map (·.idx)).getD 0
      s.engineAct e = ((((s.copyFail p k idx 0x06 (s.engine e).va).updCmd p k fun c => { c with
        copies := c.copies.filter fun j => j.engine != some e }).updEngine e fun _ => {}).copyGo p k))

/-- R476 to R483: a record is written while its ring has room and its slots translate, with the next SEQ, and TAIL advances; an essential one that cannot be written is
held, up to 64; beyond that it is counted as lost. FAULT_HOLD_RETRY tries every ring again, held records first. -/
def Claims.FaultRecordsKept : Prop :=
  (∀ (p : Nat) (r : List Byte) (s : State),
    let x := s.part p
    let b := x.fltGrp.live
    let n := r.length / 64
    let room := s.dpt.crewUp = true ∧ b.size ≠ 0 ∧ modSub two32 x.flt.tail x.flt.head + n ≤ b.size
    (¬ room → s.fltTry p r = (false, s)) ∧
    (room → s.slotsOk p b.base b.size 64 x.flt.tail n = false →
      (s.fltTry p r).1 = false ∧ ((s.fltTry p r).2.part p).flt = { x.flt with fault := true }) ∧
    (room → s.slotsOk p b.base b.size 64 x.flt.tail n = true →
      (s.fltTry p r).1 = true ∧ ((s.fltTry p r).2.part p).flt =
        { x.flt with tail := (x.flt.tail + n) % two32, sq := (x.flt.sq + 1) % two32, fault := false })) ∧
  (∀ (r : List Byte) (s : State), s.rel 1 = true → (s.dpt.crewUp = true ∨ s.rst.refuge ≠ 0 ∨ s.rst.stage < 5) →
    let x := s.flt.ring
    let n := r.length / 64
    modSub two32 x.tail x.head + n ≤ 4096 →
    (s.dfltTry r).1 = true ∧ (s.dfltTry r).2.flt.ring = { x with tail := (x.tail + n) % two32, sq := (x.sq + 1) % two32 } ∧
    ∀ j < n, n ≤ 4096 → Tab.get [] (s.dfltTry r).2.flt.dring ((x.tail + j) % 4096) = slice (setSeq r x.sq) (64 * j) 64) ∧
  (∀ (o : Option Nat) (ess : Bool) (r : List Byte) (s : State), (s.fring o).hold = [] → (s.fring o).ovEssential + (s.fring o).ovInfo = 0 →
    ((s.frTry o r).1 = true → s.enter o ess r = (s.frTry o r).2) ∧
    ((s.frTry o r).1 = false → ess = true →
      ((s.enter o ess r).fring o).hold = [{ bytes := r, kind := 0 }]) ∧
    ((s.frTry o r).1 = false → ess = false → ((s.enter o ess r).fring o).hold = [] ∧
      ((s.enter o ess r).fring o).info = min ((s.fring o).info + 1) 0xFFFF)) ∧
  (∀ (o : Option Nat) (r : FRec) (s : State), (s.fring o).hold = [r] → (s.fring o).ovEssential + (s.fring o).ovInfo = 0 →
    (s.frTry o r.bytes).1 = true → s.flushRing o = (s.frTry o r.bytes).2.updFring o fun x => { x with hold := [] }) ∧
  ∀ s : State, exec .faultHoldRetry s = .next
    (s.engines.keys.foldl (fun t e => t.engineRec e) (s.sv.parts.foldl (fun t p => t.flushRing (some p)) (s.flushRing none))).engineActions

/-- R484 to R488: PIT_LOG_WRITE puts the oldest queued record that may be written into flash under the next SEQ; records of limited kinds wait once 64 have been
written in 60 s; before the first wrap nothing written goes; FLT_PIT_SEL shows a record. A record's 4 KiB have the layout of R484. -/
def Claims.PitLogRecords : Prop :=
  (∀ (s : State) (r : PitRec) (t : List PitRec), s.dpt.up = true → s.flt.skipped = [] → s.flt.queue = r :: t →
    (pitLimited r.kind = false ∨ s.pitFull = false) →
    ∃ u, exec .pitLogWrite s = .next u ∧ u.flt.queue = t ∧ u.flash.pitSeq = s.flash.pitSeq + 1 ∧ u.flash.pit.getLast? = some { r with sq := s.flash.pitSeq } ∧
      (s.flash.pitSeq < 4096 → u.flash.pit = s.flash.pit ++ [{ r with sq := s.flash.pitSeq }]) ∧
      (pitLimited r.kind = true → u.flt.writes.getLast? = some s.clk) ∧
      { u.flash with pit := s.flash.pit, pitSeq := s.flash.pitSeq } = s.flash) ∧
  (∀ s : State, s.dpt.up = true → s.flt.skipped = [] → s.pitFull = true → (∀ r ∈ s.flt.queue, pitLimited r.kind = true) →
    exec .pitLogWrite s = .next s) ∧
  (∀ s : State, s.dpt.up = true → s.flt.skipped ≠ [] → s.pitFull = false →
    ∃ u, exec .pitLogWrite s = .next u ∧ u.flt.skipped = [] ∧ u.flash.pitSeq = s.flash.pitSeq + 1 ∧ u.flt.queue = s.flt.queue) ∧
  (∀ (q : Nat) (v : Nat) (s : State), s.hears q = true → s.rel 1 = true → s.isPrimaryPf q = true → v < two64 →
    ∃ u, exec (.fltPitSel q v) s = .next u ∧ u.flt.pitSel = v ∧ u.flash = s.flash ∧ u.mem = s.mem ∧
      (∀ r, (s.flash.pit.find? fun x => x.sq == v) = some r → u.flt.pitReady = true ∧ u.flt.pitMissing = false ∧ u.flt.pitData = r.bytes) ∧
      ((∀ r ∈ s.flash.pit, r.sq ≠ v) → u.flt.pitReady = false ∧ u.flt.pitMissing = true)) ∧
  ∀ r : PitRec, r.body.length ≤ 4000 →
    let d := r.bytes
    d.length = 4096 ∧ d.take 4 = ascii "PITL" ∧ u16 d 4 = 0x0100 ∧ u16 d 6 = r.kind % 65536 ∧ u64 d 8 = r.sq % two64 ∧ u32 d 16 = r.boot % two32 ∧
    u8 d 20 = r.source % 256 ∧ u8 d 21 = r.stage % 256 ∧ u16 d 22 = r.body.length ∧ u64 d 24 = r.time % two64 ∧ u64 d 32 = r.cycles % two64 ∧
    u32 d 40 = r.tstatus % two32 ∧ (d.drop 64).take r.body.length = r.body ∧ d.drop 4064 = padTo 32 (Config.sha256 (d.take 4064))

/-- R489, R492, R497: GO starts a capture for a partition bound to the function; another ends NOT_BOUND, and one while a capture runs BUSY; the summary is kept until the
next GO; an apply is waited for. -/
def Claims.LampCaptures : Prop :=
  (∀ (q p : Nat) (s : State), s.hears q = true → s.rel 1 = true → q ≠ 32 → p < 16 →
    let l := (s.fn q).lamp
    let mine := if q = 33 then s.sv.parts else s.bound q
    let answers := fun (x : FnLamp) => ∃ u, exec (.lampCapture q p) s = .next u ∧ (u.fn q).lamp = x ∧ (∀ h, h ≠ q → u.fn h = s.fn h) ∧
      u.parts = s.parts ∧ u.mem = s.mem
    (l.state = 1 → answers { l with code := 2 }) ∧
    (l.state ≠ 1 → mine.contains p = false → answers { l with state := 3, code := 1, part := p }) ∧
    (l.state ≠ 1 → mine.contains p = true → answers { state := 1, code := 0, part := p, data := [] })) ∧
  (∀ (q : Nat) (s : State), (s.fn q).lamp.state = 1 →
    let p := (s.fn q).lamp.part
    (s.srv.state = .applying → exec (.lampCaptureEnd q) s = .next s) ∧
    (s.srv.state ≠ .applying → ∃ u, exec (.lampCaptureEnd q) s = .next u ∧
      (u.part p).captures = ((s.part p).captures + 1) % two32 ∧ (u.fn q).lamp.state = 2 ∧ (u.fn q).lamp.code = 0 ∧
      (u.fn q).lamp.data = (s.updPart p fun x => { x with captures := ((s.part p).captures + 1) % two32 }).lamp p 2)) ∧
  ∀ (s : State) (p path : Nat), (s.lamp p path).length = 16384

/-- R494 to R496: the sideband's answers: PIT_INFO, PIT_READ (whose later offsets read the copy that its first took) and LAMP_READ; DENIED without the Survey's leave and
outside Refuge, nothing while its outputs are disabled. -/
def Claims.SidebandAnswers : Prop :=
  ∀ s : State,
    (s.rel 1 = true → s.rst.sbOut = false → exec .pitInfo s = .next s ∧ (∀ a o n, exec (.pitRead a o n) s = .next s) ∧
      ∀ p f o n, exec (.lampRead p f o n) s = .next s) ∧
    (s.rel 1 = true → s.rst.sbOut = true →
    let rsp := fun (cmd status : Nat) (d : List Byte) => leBytes 1 (cmd + 0x80) ++ leBytes 1 status ++ d
    let replies := fun (c : Instr) (cmd status : Nat) (d : List Byte) => ∃ u, exec c s = .next u ∧ u.flt.sbRsp = rsp cmd status d ∧
      u.flash = s.flash ∧ u.mem = s.mem ∧ u.gangs = s.gangs
    (s.sbOpen = false → replies .pitInfo 1 2 [] ∧ (∀ a o n, replies (.pitRead a o n) 2 2 []) ∧ ∀ p f o n, replies (.lampRead p f o n) 3 2 []) ∧
    (s.sbOpen = true →
      replies .pitInfo 1 0 (leBytes 8 s.pitNewest ++ leBytes 8 s.pitOldest) ∧
      (∀ sq n r, (s.flash.pit.find? fun x => x.sq == sq) = some r → 0 < n → n ≤ 256 →
        replies (.pitRead sq 0 n) 2 0 (slice r.bytes 0 n) ∧ ∀ u, exec (.pitRead sq 0 n) s = .next u → u.flt.sbPit = some (sq, r.bytes)) ∧
      (∀ sq o n d, s.flt.sbPit = some (sq, d) → 0 < o → 0 < n → n ≤ 256 → o + n ≤ 4096 → replies (.pitRead sq o n) 2 0 (slice d o n)) ∧
      (∀ sq o n, (∀ r ∈ s.flash.pit, r.sq ≠ sq) → (∀ x ∈ s.flt.sbPit, x.1 ≠ sq) → replies (.pitRead sq o n) 2 1 []) ∧
      (∀ p f o n, (15 < p ∨ n = 0 ∨ 256 < n ∨ 16384 < o + n) → replies (.lampRead p f o n) 3 4 []) ∧
      (∀ p o n, p ≤ 15 → 0 < n → n ≤ 256 → o + n ≤ 16384 →
        (s.srv.state = .applying → replies (.lampRead p true o n) 3 3 []) ∧
        (s.srv.state ≠ .applying → replies (.lampRead p true o n) 3 0 (slice (s.capture p 3).1 o n)) ∧
        (s.flt.sbLamp ≠ [] → u8 s.flt.sbLamp 6 = p → replies (.lampRead p false o n) 3 0 (slice s.flt.sbLamp o n)) ∧
        (s.flt.sbLamp = [] ∨ u8 s.flt.sbLamp 6 ≠ p → replies (.lampRead p false o n) 3 1 []))))

/-- R264, R268, R271: a TENSOR that passes its checks, in order, lies on pages that the engine places, and pool-half leaves with R, W and, as asked, A and X cover its
range in its slot; each failing check has its code, and nothing else changes; one that does not fit waits for pages still being freed, or fails where even the
replicas' would not do (R272). -/
def Claims.TensorDeclared : Prop :=
  ∀ (p n : Nat) (c : List Byte) (s : State) (b : List Byte) (k : Nat) (u : State), Begins 0x11 0 0 [(16, 48)] p n (placeArg 1 c) s b k u →
    let run := exec (.tensor p n c) s
    let d := slice b 16 48
    let id := u16 d 2
    let slot := u8 d 1
    let va := u64 d 8
    let size := u64 d 16
    let slots := if bit (u8 d 6) 5 then u.slotsOn p else [slot]
    (¬ tensorOk d → run = .next (u.fail p k 0x01)) ∧
    (tensorOk d → size = 0 → run = .next u) ∧
    (tensorOk d → size ≠ 0 → (u.asOn p slot = false ∨ u.sv.pool p (u8 d 4) = none) → run = .next (u.fail p k 0x03)) ∧
    ∀ pl, tensorOk d → size ≠ 0 → u.asOn p slot = true → u.sv.pool p (u8 d 4) = some pl →
      (bit (u8 d 6) 1 = true → u.sv.grant p 0 = false → run = .next (u.fail p k 0x06)) ∧
      ((bit (u8 d 6) 1 = false ∨ u.sv.grant p 0 = true) →
        (((u.part p).plc.tensors.any (fun e => e.1 == id)) = true ∨ (∃ sl ∈ slots, u.mapped p sl va size = true) → run = .next (u.fail p k 0x02)) ∧
        (let fits := fun (v : State) => (v.placePages p pl (u8 d 5) (size / 65536)).isSome
         let need := State.mustDrop p fits (u.replicas p) u.settled
         ((u.part p).plc.tensors.any (fun e => e.1 == id)) = false → (∀ sl ∈ slots, u.mapped p sl va size = false) → fits u = false →
           (need = none → run = .next (u.fail p k 0x04)) ∧ (need = some 0 → run = .next (u.await p k .again))) ∧
        ∀ pages v, ((u.part p).plc.tensors.any (fun e => e.1 == id)) = false → (∀ sl ∈ slots, u.mapped p sl va size = false) →
          u.placePages p pl (u8 d 5) (size / 65536) = some (pages, v) →
          ∃ t, run = .next t ∧ Ended t p k 0 ∧
            (let x := t.tensor p id
             x.slot = slot ∧ x.va = va ∧ x.size = size ∧ x.pool = u8 d 4 ∧ x.pages = pages ∧ x.lifetime = u8 d 24 ∧ x.sealed = false ∧ x.ring = n) ∧
            ∀ sl ∈ slots, ∀ j sm pg, j < size / 65536 → pages[j]? = some (sm, pg) →
              Tab.get 0 (t.part p).table (pageKey sl (va + j * 65536)) = leafWord sm pg true true (bit (u8 d 6) 3) (bit (u8 d 6) 4))

/-- R219, R221, R267, R268: REGION_LOAD by the region's owner places it anew on zeroed pages, writable, once the pages it had have left it; REGION_MAP by a reader maps it
read-only; by another partition, or in a wrong state, they are refused. -/
def Claims.RegionCommands : Prop :=
  (∀ (p n : Nat) (c : List Byte) (s : State) (b : List Byte) (k : Nat) (u : State), Begins 0x11 0 0 [(16, 48)] p n (placeArg 5 c) s b k u →
    ∀ d, u.sv.region (u16 (slice b 16 48) 2) = some d →
    let run := exec (.regionLoad p n c) s
    let o := slice b 16 48
    let va := u64 o 8
    let size := d.size2m * 2 ^ 21
    let ok := va % 65536 = 0 ∧ va < 2 ^ 55 ∧ va + size ≤ 2 ^ 55 ∧ bodyZero o [(0, 4), (8, 8)] = true
    let st := (u.region d.region).state
    let t := u.regionUnmap p d
    let held := (u.region d.region).frames ≠ []
    let may := ∀ q ∈ u.regionParts d.region, u.canBump q = true
    (¬ ok → run = .next (u.fail p k 0x01)) ∧
    (ok → u.asOn p (u8 o 1) = false → run = .next (u.fail p k 0x03)) ∧
    (ok → u.asOn p (u8 o 1) = true → d.owner ≠ p → run = .next (u.fail p k 0x06)) ∧
    (ok → u.asOn p (u8 o 1) = true → d.owner = p → (st = .absent ∨ st = .loading) → run = .next (u.fail p k 0x07)) ∧
    (ok → u.asOn p (u8 o 1) = true → d.owner = p → st ≠ .absent → st ≠ .loading →
      (t.mapped p (u8 o 1) va size = true → run = .next (u.fail p k 0x02)) ∧
      (t.mapped p (u8 o 1) va size = false → held → ¬ may → run = .next (u.await p k .again)) ∧
      (t.mapped p (u8 o 1) va size = false → (held → may) →
        let v := if held then (u.regionLeave d).regionUnmap p d else t
        let fits := fun (x : State) => ∃ y i z, x.regionPlace d = some y ∧ y.regionSeam p d.region = some (i, z)
        (held → (∀ x, ¬ fits x) → run = .next (u.fail p k 0x04)) ∧
        ∀ y i w, v.regionPlace d = some y → y.regionSeam p d.region = some (i, w) →
          (held → fits (t.regionLeave d).settled) →
          run = .next ((w.regionMap p (u8 o 1) va i d true).await p k .done) ∧ (w.region d.region).state = .loading))) ∧
  (∀ (p n : Nat) (c : List Byte) (s : State) (b : List Byte) (k : Nat) (u : State), Begins 0x11 0 0 [(16, 48)] p n (placeArg 7 c) s b k u →
    ∀ d, u.sv.region (u16 (slice b 16 48) 2) = some d →
    let run := exec (.regionMap p n c) s
    let o := slice b 16 48
    let va := u64 o 8
    let size := d.size2m * 2 ^ 21
    let ok := va % 65536 = 0 ∧ va < 2 ^ 55 ∧ va + size ≤ 2 ^ 55 ∧ bodyZero o [(0, 4), (8, 8)] = true
    let st := (u.region d.region).state
    (¬ ok → run = .next (u.fail p k 0x01)) ∧
    (ok → u.asOn p (u8 o 1) = false → run = .next (u.fail p k 0x03)) ∧
    (ok → u.asOn p (u8 o 1) = true → bit d.readers p = false → run = .next (u.fail p k 0x06)) ∧
    (ok → u.asOn p (u8 o 1) = true → bit d.readers p = true → (st = .absent ∨ st = .empty) → run = .next (u.fail p k 0x07)) ∧
    (ok → u.asOn p (u8 o 1) = true → bit d.readers p = true → st ≠ .absent → st ≠ .empty → u.mapped p (u8 o 1) va size = true →
      run = .next (u.fail p k 0x02)) ∧
    ∀ i w, ok → u.asOn p (u8 o 1) = true → bit d.readers p = true → st ≠ .absent → st ≠ .empty → u.mapped p (u8 o 1) va size = false →
      u.regionSeam p d.region = some (i, w) → run = .next (w.regionMap p (u8 o 1) va i d false)) ∧
  ∀ (p slot va i j : Nat) (d : RegionDef) (w : Bool) (s : State), va % 65536 = 0 → va + d.size2m * 2 ^ 21 ≤ 2 ^ 55 → j < d.size2m * 32 →
    Tab.get 0 ((s.regionMap p slot va i d w).part p).table (pageKey slot (va + j * 65536)) = leafWord i j true w false false

/-- R221, R253, R267: SEAL clears W and retires with the epoch after it; RELEASE withdraws a tensor's leaves and frees its pages after the epoch, lets a stage go, whose cores its launches in flight
keep, closes a conveyor. -/
def Claims.SealAndRelease : Prop :=
  (∀ (p n : Nat) (c : List Byte) (s : State) (b : List Byte) (k : Nat) (u : State), Begins 0x11 0 0 [(16, 48)] p n (placeArg 6 c) s b k u →
    let run := exec (.seal p n c) s
    let d := slice b 16 48
    let x := u.tensor p (u16 d 2)
    let known := ((u.part p).plc.tensors.any fun e => e.1 == u16 d 2) = true
    let moving := x.moving = true
    let ok := u8 d 1 = 1 ∧ bodyZero d [(0, 4)] = true
    (ok → ¬ known → run = .next (u.fail p k 0x03)) ∧ (ok → known → x.sealed = true → run = .next (u.fail p k 0x07)) ∧
    (ok → known → x.sealed = false → (moving ∨ u.canBump p = false) → run = .next (u.await p k .again)) ∧
    (ok → known → x.sealed = false → ¬ moving → u.canBump p = true → ∃ t, run = .next t ∧ (t.tensor p (u16 d 2)).sealed = true ∧
      (t.cmd p k).wait = .epoch (u.part p).epoch ∧ (t.part p).epoch = ((u.part p).epoch + 1) % 65536 ∧
      ∀ sl ∈ u.tensorSlots p x, ∀ j < x.size / 65536, bit (Tab.get 0 (t.part p).table (pageKey sl x.va + j)) 5 = false)) ∧
  (∀ (p n : Nat) (c : List Byte) (s : State) (b : List Byte) (k : Nat) (u : State), Begins 0x11 0 0 [(16, 48)] p n (placeArg 2 c) s b k u →
    let run := exec (.release p n c) s
    let d := slice b 16 48
    let i := u16 d 2
    let x := u.tensor p i
    let known := ((u.part p).plc.tensors.any fun e => e.1 == i) = true ∧ x.releasing = false
    let moving := x.moving = true
    let ok := bodyZero d [(0, 4)] = true
    ((¬ ok ∨ (u8 d 1 ≠ 1 ∧ u8 d 1 ≠ 3 ∧ u8 d 1 ≠ 4)) → run = .next (u.fail p k 0x01)) ∧
    (ok → u8 d 1 = 1 → ¬ known → run = .next (u.fail p k 0x03)) ∧
    (ok → u8 d 1 = 1 → known → (moving ∨ u.canBump p = false) → run = .next (u.await p k .again)) ∧
    (ok → u8 d 1 = 1 → known → ¬ moving → u.canBump p = true → ∃ t, run = .next t ∧ (t.cmd p k).wait = .epoch (u.part p).epoch ∧
      t.tensor p i = {} ∧ ∀ sl ∈ u.tensorSlots p x, ∀ j < x.size / 65536, Tab.get 0 (t.part p).table (pageKey sl x.va + j) = 0) ∧
    (ok → u8 d 1 = 3 → (u.stg p i).declared = false → run = .next (u.fail p k 0x03)) ∧
    (ok → u8 d 1 = 3 → (u.stg p i).declared = true → ∃ t, run = .next t ∧ Ended t p k 0 ∧ t.stg p i = {} ∧
      (u.stageRuns p i ≠ [] → (u.stageRuns p i, (u.stg p i).district) ∈ (t.part p).plc.oldDistricts)) ∧
    (ok → u8 d 1 = 4 → (u.conv p i).declared = false → run = .next (u.fail p k 0x03)) ∧
    (ok → u8 d 1 = 4 → (u.conv p i).declared = true → run = .next ((State.cvClose p i u).freeConveyor p i)))

/-- R265, R268: a STAGE within its limits is declared with its CORES_MIN, CORES_MAX, WORK and PIN; the limits are MAX_DISTRICT and the sum of the CORES_MIN within MAX_CORES. -/
def Claims.StageDeclared : Prop :=
  ∀ (p n : Nat) (c : List Byte) (s : State) (b : List Byte) (k : Nat) (u : State), Begins 0x11 0 0 [(16, 48)] p n (placeArg 3 c) s b k u →
    let run := exec (.stage p n c) s
    let d := slice b 16 48
    let i := u8 d 1
    let lo := u16 d 2
    let hi := u16 d 4
    let ok := i ≤ 63 ∧ 1 ≤ lo ∧ lo ≤ hi ∧ u8 d 6 ≤ 1 ∧ bodyZero d [(0, 7), (8, 8)] = true
    let fits := hi ≤ u.sv.maxDistrict p ∧ ((u.stages p).map fun e => e.2.min).sum + lo ≤ u.sv.maxCores p
    (¬ ok → run = .next (u.fail p k 0x01)) ∧
    (ok → (u.stg p i).declared = true → run = .next (u.fail p k 0x02)) ∧
    (ok → (u.stg p i).declared = false → ¬ fits → run = .next (u.fail p k 0x05)) ∧
    (ok → (u.stg p i).declared = false → fits → ∃ t, run = .next t ∧ Ended t p k 0 ∧
      (t.stg p i).declared = true ∧ (t.stg p i).min = lo ∧ (t.stg p i).max = hi ∧ (t.stg p i).work = u64 d 8 ∧ (t.stg p i).pinned = bit (u8 d 6) 0)

/-- R266, R268, R269: a CONVEYOR of known stages is declared empty: its buffer in the scratch grant where it fits, else in pages of its pool, and none where the consumer is on another device. -/
def Claims.ConveyorDeclared : Prop :=
  ∀ (p n : Nat) (c : List Byte) (s : State) (b : List Byte) (k : Nat) (u : State), Begins 0x11 0 0 [(16, 48)] p n (placeArg 4 c) s b k u →
    let run := exec (.conveyor p n c) s
    let d := slice b 16 48
    let i := u8 d 1
    let pr := u8 d 2
    let co := u8 d 3
    let remote := pr = 0xFF ∨ co = 0xFF
    let ok := (pr ≤ 63 ∨ pr = 0xFF) ∧ (co ≤ 63 ∨ co = 0xFF) ∧ ¬ (pr = 0xFF ∧ co = 0xFF) ∧ u8 d 4 ≤ 2 ∧ 8 ≤ u8 d 5 ∧ u8 d 5 ≤ 24 ∧ u16 d 6 < 16384 ∧
      (remote ∨ u16 d 6 = 0) ∧ u8 d 9 ≤ 15 ∧ bodyZero d [(0, 10)] = true
    let known := fun (x : Nat) => x = 0xFF ∨ (u.stg p x).declared = true
    let new : Conveyor := { declared := true, producer := pr, consumer := co, width := u8 d 4, depth := 2 ^ u8 d 5, dev := u16 d 6, rconv := u8 d 8
                            pool := u8 d 9, far := pr == 0xFF || co == 0xFF, dead := (pr == 0xFF || co == 0xFF) && !Tab.get false u.fab.reach (u16 d 6) }
    let bytes := 2 ^ u8 d 5 * (4 * 2 ^ u8 d 4)
    (¬ ok → run = .next (u.fail p k 0x01)) ∧
    (ok → (¬ known pr ∨ ¬ known co ∨ u.sv.pool p (u8 d 9) = none) → run = .next (u.fail p k 0x03)) ∧
    ∀ pl, ok → known pr → known co → u.sv.pool p (u8 d 9) = some pl →
      (remote → u.sv.grant p 1 = false → run = .next (u.fail p k 0x06)) ∧
      ((¬ remote ∨ u.sv.grant p 1 = true) → ((u.part p).plc.conveyors.any fun e => e.1 == i) = true → run = .next (u.fail p k 0x02)) ∧
      ((¬ remote ∨ u.sv.grant p 1 = true) → ((u.part p).plc.conveyors.any fun e => e.1 == i) = false →
        (co = 0xFF → run = .next (u.updConv p i fun _ => new)) ∧
        (∀ a, co ≠ 0xFF → u.grantFit p bytes = some a → run = .next ((u.updConv p i fun _ => { new with inScratch := true, base := a }).await p k .done)) ∧
        (∀ pages v, co ≠ 0xFF → u.grantFit p bytes = none → u.placePages p pl 0 (ceilDiv bytes 65536) = some (pages, v) →
          ∃ t, run = .next t ∧ Ended t p k 0 ∧ (t.conv p i).declared = true ∧ (t.conv p i).pages = pages ∧ (t.conv p i).buf = [] ∧ (t.conv p i).depth = 2 ^ u8 d 5))

/-- R279, R280: PLACE_QUERY writes the 128-byte placement record of a declared object; PLACE_PIN pins or unpins where the Survey lets it, and a pin drops a change already decided. -/
def Claims.QueryAndPin : Prop :=
  (∀ (p n : Nat) (c : List Byte) (s : State) (b : List Byte) (k : Nat) (u : State), Begins 0x12 0 0 [(16, 48)] p n c s b k u →
    let run := exec (.placeQuery p n c) s
    let d := slice b 16 48
    let ok := u8 d 0 = 0 ∧ u8 d 1 ∈ [1, 3, 4, 8] ∧ u64 d 8 % 128 = 0 ∧ u64 d 8 < 2 ^ 55 ∧ bodyZero d [(0, 5), (8, 8)] = true
    (¬ ok → run = .next (u.fail p k 0x01)) ∧
    (ok → u.placement p (u8 d 1) (u16 d 2) = none → run = .next (u.fail p k 0x03)) ∧
    (∀ r, ok → u.placement p (u8 d 1) (u16 d 2) = some r → u.asOn p (u8 d 4) = true → u.vwritable (tlbCp p) p (u8 d 4) (u64 d 8) 128 = true →
      let t := u.cpWrite p n (u.cmdTally p k) (u8 d 4) (u64 d 8) r
      (u8 d 1 = 1 → run = .next (t.updTensor p (u16 d 2) fun x => { x with replaced := false })) ∧
      (u8 d 1 = 4 → run = .next (t.updConv p (u16 d 2) fun x => { x with replaced := false })) ∧
      (u8 d 1 = 8 → run = .next (t.updSeam p (u16 d 2) fun x => { x with replaced := false })) ∧
      (u8 d 1 = 3 → run = .next t)) ∧
    (∀ r, ok → u.placement p (u8 d 1) (u16 d 2) = some r →
      (u.asOn p (u8 d 4) = false ∨ u.vwritable (tlbCp p) p (u8 d 4) (u64 d 8) 128 = false) → run = .next (u.fail p k 0x03 (u64 d 8)))) ∧
  (∀ (p what id : Nat) (s : State) (r : List Byte), s.placement p what id = some r → r.length = 128 ∧ u8 r 0 = what % 256 ∧ u16 r 2 = id % 65536) ∧
  (∀ (p n : Nat) (c : List Byte) (s : State) (b : List Byte) (k : Nat) (u : State), Begins 0x13 0 0 [(16, 48)] p n c s b k u →
    let run := exec (.placePin p n c) s
    let d := slice b 16 48
    let i := u16 d 2
    let on := u8 d 4 == 1
    let ok := u8 d 0 = 0 ∧ u8 d 1 ∈ [0, 1, 3] ∧ u8 d 4 ≤ 1 ∧ bodyZero d [(0, 5)] = true
    let known := (u8 d 1 = 1 → ((u.part p).plc.tensors.any fun e => e.1 == i) = true) ∧ (u8 d 1 = 3 → (u.stg p i).declared = true)
    (¬ ok → run = .next (u.fail p k 0x01)) ∧ (ok → ¬ known → run = .next (u.fail p k 0x03)) ∧
    (ok → known → bit (u.sv.pflags p) 2 = false → run = .next (u.fail p k 0x08)) ∧
    (ok → known → bit (u.sv.pflags p) 2 = true → ∃ t, run = .next t ∧
      (u8 d 1 = 0 → (t.part p).plc.pinnedAll = on) ∧
      (u8 d 1 = 1 → (t.tensor p i).pinned = on ∧ (on = true → (t.tensor p i).prop = none ∧ (t.tensor p i).decided = false)) ∧
      (u8 d 1 = 3 → (t.stg p i).pinned = on ∧ (on = true → (t.stg p i).prop = none ∧ (t.stg p i).decided = false)))) ∧
  ∀ (s : State) (ch pg o : Nat), o < 65536 → (s.givePage ch pg).mem.dev.byte (paOf ch pg o) = 0#8 ∧
    Tab.get false (s.givePage ch pg).mem.used (ch * 32768 + pg) = false

/-- R270, R273, R274: a Crew proposal outside the masks is counted and weighed no further; another waits; it is decided once four evaluations in a row find a gain of 10% or more (the gain itself is a free
value, log entry 16); a pinned object is not weighed. -/
def Claims.ProposalsWeighed : Prop :=
  (∀ (d : Proposal) (s : State), s.dpt.crewUp = true → (s.proposalOk d).2.2 = false →
    exec (.crewProposal d) s = .next (s.maskRefusal (s.proposalOk d).1 (s.proposalOk d).2.1)) ∧
  (∀ (p t stride : Nat) (chans : List Nat) (s : State), s.dpt.crewUp = true → (s.proposalOk (.reseam p t chans stride)).2.2 = true →
    (s.tensor p t).prop ≠ some (.seam chans stride) →
    exec (.crewProposal (.reseam p t chans stride)) s = .next (s.updTensor p t fun x => { x with prop := some (.seam chans stride), gains := 0, decided := false })) ∧
  (∀ (p i : Nat) (cores : List Nat) (s : State), s.dpt.crewUp = true → (s.proposalOk (.district p i cores)).2.2 = true →
    (s.stg p i).prop ≠ some (maskOf cores) →
    exec (.crewProposal (.district p i cores)) s = .next (s.updStage p i fun x => { x with prop := some (maskOf cores), gains := 0, decided := false })) ∧
  (∀ s : State, s.tim.cad.live = none → exec .evaluationTimer s = .next (s.sv.parts.foldl State.evaluate s)) ∧
  (∀ s : State, s.tim.cad.live ≠ none → exec .evaluationTimer s = .next s) ∧
  (∀ (p t : Nat) (s : State), s.dpt.crewUp = true →
    let x := s.tensor p t
    let y := (s.evaluate p).tensor p t
    ((x.prop = none ∨ x.pinned = true ∨ (s.part p).plc.pinnedAll = true) → y = x) ∧
    (x.prop ≠ none → x.pinned = false → (s.part p).plc.pinnedAll = false →
      let g := Config.gain p t (s.part p).plc.evals
      (g < 10 → y = { x with gains := 0, decided := false }) ∧
      (10 ≤ g → y = { x with gains := min 4 (x.gains + 1), decided := x.decided || decide (3 ≤ x.gains) })))

/-- R253, R275 to R280, R283: a seam's forced move begins once it holds commands and those in flight have retired, and its objects are then MOVING; a group moves only while its move is active,
the epochs may advance and, of an unforced move, its bytes fit before SHOT_END; a moved page's leaves name its new place; a retired page's frame takes the free page; the end of a move
counts a change. -/
def Claims.MovesProceed : Prop :=
  (∀ (p i : Nat) (s : State),
    let go := (s.seam p i).active = false ∧ s.moveHolds p i = true ∧ s.seamQuiet p i = true
    (¬ go → exec (.forcedMoveStart p i) s = .next s) ∧
    (go → ∃ u, exec (.forcedMoveStart p i) s = .next u ∧ (u.seam p i).active = true ∧ (u.seam p i).hold = true ∧ (u.seam p i).grp.pend = none ∧
      ∀ t, (∃ e ∈ (s.tensor p t).pages, e.1 = i) → (u.tensor p t).moving = true)) ∧
  (∀ (p t : Nat) (s : State), t < 65536 → (∀ m, (s.tensor p t).move = some m → m.active = false) → exec (.moveGroupEnd p t) s = .next s) ∧
  (∀ (p t : Nat) (s : State) (m : Move), t < 65536 → (s.tensor p t).move = some m → m.active = true →
    let l := s.nextGroup p (s.tensor p t) m
    (l ≠ [] → (s.canBump p = false ∨ s.groupFits m.at_ l.length = false) → exec (.moveGroupEnd p t) s = .next s) ∧
    (l ≠ [] → s.canBump p = true → s.groupFits m.at_ l.length = true →
      (s.groupStep p m l = none → exec (.moveGroupEnd p t) s = .next s) ∧
      ∀ old built u, s.groupStep p m l = some (old, built, u) →
        let v := u.groupDone p old
        exec (.moveGroupEnd p t) s = .next ((v.2.updTensor p t fun y => { y with
          move := some { m with done := m.done + l.length, at_ := u.tim.now, built := m.built ++ built, last := some v.1 } }).moveEnd p t))) ∧
  (∀ (p i : Nat) (s : State), (s.seam p i).active = false → exec (.moveGroupEnd p (65536 + i)) s = .next s) ∧
  (∀ (p i : Nat) (s : State), (s.seam p i).active = true → s.moveDue p i = true → (∃ q ∈ s.seamParts p i, s.canBump q = false) →
    exec (.moveGroupEnd p (65536 + i)) s = .next s) ∧
  (∀ (p k : Nat) (a b : Nat × Nat) (s : State), b.1 < 256 → b.2 < 2 ^ 24 →
    let w := Tab.get 0 (s.part p).table k
    let w' := Tab.get 0 ((s.repoint p a b).part p).table k
    (leafIs w a.1 a.2 = false → w' = w) ∧
    (leafIs w a.1 a.2 = true → leafIs w' b.1 b.2 = true ∧ ∀ j ∈ [4, 5, 6, 7], bit w' j = bit w j)) ∧
  (∀ (p t : Nat) (m : Move) (s : State), (s.tensor p t).move = some m → m.kind = .reseam → (s.tensor p t).pages.length ≤ m.done →
    (∀ e ∈ m.last, s.passed p e = true) → (s.tensor p t).releasing = false →
    let x := s.tensor p t
    s.moveEnd p t = s.updTensor p t fun _ =>
      { x with move := none, changes := x.changes + 1, changedAt := s.tim.now, quiet := 4, was := if x.via.isEmpty then [] else x.was }) ∧
  (∀ (p i f q c pg : Nat) (s : State), (s.seam p i).active = true → (s.seam p i).region = none → (s.seam p i).plan = [] → (s.seam p i).goal = none →
    s.fixable p i = some (f, q) → (s.seam p i).d.chans[f % (s.seam p i).d.chans.length]? = some c → Tab.get 0 (s.seam p i).d.frames f = pg + 1 →
    s.canBump p = true →
    let u := s.fixGroup p i f q
    exec (.moveGroupEnd p (65536 + i)) s = .next (u.seamEnd p i) ∧ Tab.get 0 (u.seam p i).d.frames f = q + 1 ∧
    ((s.part p).plc.zeroing = [] → s.mem.leaving = [] →
      (u.part p).epoch = ((s.part p).epoch + 1) % 65536 ∧ Tab.get false u.mem.used (c * 32768 + q) = true)) ∧
  (∀ (p i : Nat) (s : State), (s.seam p i).active = true → s.moveDue p i = false → (∀ w ∈ (s.seam p i).last, s.passed w.1 w.2 = true) →
    (s.seam p i).used ≠ [] → (∀ e ∈ (s.part p).plc.tensors, e.2.releasing = false) →
    ∃ u, exec (.moveGroupEnd p (65536 + i)) s = .next u ∧
      (let y := u.seam p i
       y.active = false ∧ y.hold = false ∧ y.replaced = true ∧ y.changes = (s.seam p i).changes + 1 ∧ y.changedAt = s.tim.now) ∧
      ∀ t, i ∈ (s.tensor p t).via →
        let x := s.tensor p t
        let z := u.tensor p t
        z.replaced = true ∧ z.changes = x.changes + 1 ∧ z.changedAt = s.tim.now ∧ z.via = x.via.filter (· != i) ∧ z.pages = x.pages)

/-- R324 to R327, R330: TIM_SET corrects Record Time while FREE, by a slew or, above 1 ms ahead, a step; a PPS edge high for less than 1 µs, or outside 1 s ± 1 ms after the
last, is only counted as rejected, an accepted one is measured against the staged second and corrected, and four good ones in a row lock; 1.5 s without one is holdover, or the fabric's time
where a neighbour's ranks above it (R329). -/
def Claims.TimebaseFollowsPps : Prop :=
  (∀ (q v : Nat) (s : State), GlobalAt q 6 s → v < two64 →
    (s.tim.state ≠ .free → exec (.timSet q v) s = .next s) ∧
    (s.tim.state = .free → v ≤ s.tim.now + 1000000 →
      exec (.timSet q v) s = .next { s with tim := { s.tim with slew := ((v : Int) - s.tim.now) * 65536, slewAcc := 0 } }) ∧
    (s.tim.state = .free → s.tim.now + 1000000 < v → s.tim.cad.live = none →
      ∃ t, exec (.timSet q v) s = .next t ∧ t.tim.now = v ∧ t.tim.slew = 0 ∧ t.tim.steps = min (s.tim.steps + 1) 0xFFFFFFFF ∧
        t.tim.cad.window = none ∧ t.tim.cad.start = v ∧
        ∀ p k x, (s.cmd p k).wait = .time x → (t.cmd p k).wait = if x ≤ v then .done else .time x)) ∧
  (∀ (high : Nat) (s : State),
    let t := s.tim
    let base := if bit t.stage 63 then bits t.stage 33 0 * 1000000000 else (t.now + 500000000) / 1000000000 * 1000000000
    let err : Int := (base : Int) + sgn 32 t.delay - t.now
    let near := fun (c : Nat) => 1500000000 < s.clk - c ∨ (999000000 ≤ s.clk - c ∧ s.clk - c ≤ 1001000000)
    ((s.rel 1 = false ∨ bit t.ctrl 0 = false) → exec (.ppsEdge high) s = .next s) ∧
    (s.rel 1 = true → bit t.ctrl 0 = true →
      ((high < 1000 ∨ ∃ c, t.edgeAt = some c ∧ ¬ near c) →
        exec (.ppsEdge high) s = .next { s with tim := { t with rejects := min (t.rejects + 1) 0xFF } }) ∧
      (1000 ≤ high → (∀ c, t.edgeAt = some c → near c) → t.port = none → err ≤ 1000000 →
        ∃ u, exec (.ppsEdge high) s = .next u ∧ u.tim.edgeAt = some s.clk ∧ u.tim.err = ppsErr err ∧ u.tim.last = t.now ∧
          u.tim.slew = err * 65536 ∧ u.tim.now = t.now ∧ u.tim.steps = t.steps ∧
          bits u.tim.stage 33 0 = (bits t.stage 33 0 + 1) % 2 ^ 34 ∧
          u.tim.good = (if err.natAbs ≤ 20 then min (t.good + 1) 4 else 0) ∧
          (u.tim.state = .lockedPps ↔ (err.natAbs ≤ 20 ∧ 3 ≤ t.good) ∨ t.state = .lockedPps) ∧
          (u.tim.state ≠ .lockedPps → u.tim.state = .acquiring)) ∧
      (1000 ≤ high → (∀ c, t.edgeAt = some c → near c) → t.port ≠ none → ¬ (err.natAbs ≤ 20 ∧ 3 ≤ t.good) →
        ∃ u, exec (.ppsEdge high) s = .next u ∧ u.tim.edgeAt = some s.clk ∧ u.tim.err = ppsErr err ∧ u.tim.last = t.now ∧
          u.tim.slew = t.slew ∧ u.tim.now = t.now ∧ u.tim.state = t.state ∧ u.tim.port = t.port))) ∧
  (∀ (s : State) (i : Nat), s.tim.port = none → (s.tim.state = .lockedPps ∨ s.tim.state = .acquiring) →
    let c := State.source { s with tim := { s.tim with state := .holdover, expired := false, good := 0 } }
    c.port = some i → ∃ t, exec .ppsTimeout s = .next t ∧ t.tim.port = some i ∧ t.tim.state = .acquiring ∧ t.tim.cls = c.cls ∧
      t.tim.hops = c.hops ∧ t.tim.root = c.root ∧ t.tim.now = s.tim.now) ∧
  (∀ (s : State), bit s.tim.ctrl 1 = false →
    (s.tim.port = none → (s.tim.state = .lockedPps ∨ s.tim.state = .acquiring) →
      ∃ t, exec .ppsTimeout s = .next t ∧ t.tim = { s.tim with state := .holdover, expired := false, good := 0 }) ∧
    ((s.tim.port ≠ none ∨ (s.tim.state ≠ .lockedPps ∧ s.tim.state ≠ .acquiring)) → exec .ppsTimeout s = .next s) ∧
    (s.tim.state = .holdover → s.tim.port = none → ∃ t, exec .holdoverExpiry s = .next t ∧ t.tim.expired = true ∧ t.tim.state = .holdover ∧ t.tim.cls = 3) ∧
    (s.tim.state ≠ .holdover → exec .holdoverExpiry s = .next s))

/-- R328, R329: a TIME message from a neighbour is measured by the four times of the exchange; eight offsets of the source that the device takes steer its time, and
eight good ones in a row lock. Each exchange sends every neighbour that is UP the times it needs. -/
def Claims.TimeOverFabric : Prop :=
  (∀ (port : Nat) (m : TimeMsg) (s : State),
    let x := Tab.get {} s.tim.nbrs port
    let first := m.echoTx = 0 ∧ m.echoRx = 0
    let delay := if first then x.delay else (((s.tim.now : Int) - m.echoTx) - ((m.tTx : Int) - m.echoRx)) / 2
    let off := (((m.echoRx : Int) - m.echoTx) - ((s.tim.now : Int) - m.tTx)) / 2
    let offs := if first then x.offsets else (x.offsets ++ [off]).drop (x.offsets.length - 7)
    let n : TimNbr := { x with
      tTx := m.tTx, tRx := s.tim.now, delay := delay, offsets := offs, root := m.root, cls := m.cls % 4, hops := m.hops, serve := m.serve }
    let s1 : State := { s with tim := { s.tim with nbrs := Tab.set {} s.tim.nbrs port n } }
    (s.portUp port = false → exec (.time port m) s = .next s) ∧
    (s.portUp port = true → s.tim.port = none → s1.source.port = none →
      ∃ t, exec (.time port m) s = .next t ∧ Tab.get {} t.tim.nbrs port = n ∧ t.tim.port = none ∧ t.tim.now = s.tim.now ∧
        t.tim.slew = s.tim.slew ∧ t.tim.state = s.tim.state) ∧
    (s.portUp port = true → s1.source.port = some port → s.tim.port ≠ some port →
      ∃ t, exec (.time port m) s = .next t ∧ t.tim.port = some port ∧ t.tim.state = .acquiring ∧ t.tim.cls = m.cls % 4 ∧
        t.tim.hops = m.hops + 1 ∧ t.tim.root = m.root ∧ (Tab.get {} t.tim.nbrs port).offsets = []) ∧
    (s.portUp port = true → s1.source.port = some port → s.tim.port = some port → ¬ first → 7 ≤ x.offsets.length →
      Config.offsetFilter offs ≤ 1000000 →
      ∃ t, exec (.time port m) s = .next t ∧ t.tim.slew = Config.offsetFilter offs * 65536 ∧
        (Tab.get {} t.tim.nbrs port).good = (if (Config.offsetFilter offs).natAbs ≤ 40 then min (x.good + 1) 8 else 0) ∧
        t.tim.state = if (Config.offsetFilter offs).natAbs ≤ 40 ∧ 7 ≤ x.good then .lockedFabric else s.tim.state)) ∧
  (∀ s : State, ∃ t, exec .timeExchangeTimer s = .next t ∧ t.tim = s.tim ∧
    ∀ i < 32, (s.portUp i = false → (t.fabPort i).out = (s.fabPort i).out) ∧ (s.portUp i = true →
      let f : Flit := { type := 2, hops := 31, dest := 0, src := s.devId.getD 0, flow := 0xC000, body := padTo 256 (s.timeBody i) }
      (f ∈ (t.fabPort i).out ∨ ∃ w ∈ (t.fabPort i).queue, w.flit = f) ∧
      ((s.fabPort i).queue = [] → (s.fabPort i).may 0 = true → (t.fabPort i).out = (s.fabPort i).out ++ [f] ∧ (t.fabPort i).queue = [])))

/-- R378 to R380: RED_JOIN fills a free slot with its body and the rank table read at its address, with each failing check's code in order; LEAVE frees the slot of a job that is
JOINED. -/
def Claims.JobsJoinAndLeave : Prop :=
  (∀ (p n : Nat) (c : List Byte) (s : State),
    (∀ (b : List Byte) (k : Nat) (u : State), Begins 0x14 0 0 [(16, 48)] p n (joinArg 0 c) s b k u →
      let run := exec (.redJoin p n c) s
      let d := slice b 16 48
      let id := u16 d 0
      let ranks := u16 d 4
      (joinBad d = true → run = .next (u.fail p k 0x01)) ∧
      (joinBad d = false → u.asOn p (u8 d 12) = false → run = .next (u.fail p k 0x02)) ∧
      (joinBad d = false → u.asOn p (u8 d 12) = true → (u.sv.grant p 2 && u.sv.jobOk p id) = false → run = .next (u.fail p k 0x0A)) ∧
      (joinBad d = false → u.asOn p (u8 d 12) = true → (u.sv.grant p 2 && u.sv.jobOk p id) = true →
        (u.devId = none → run = .next (u.fail p k 0x44)) ∧
        ∀ me, u.devId = some me →
          ((∃ i, u.jobSlot id = some i) → run = .next (u.fail p k 0x40)) ∧
          ∀ i v, u.jobSlot id = none → (∀ t, (u.jobs.filter fun e => e.2.state != .free && e.2.tier == t).length < 16) →
            (List.range 64).find? (fun i => (u.job i).state == .free) = some i →
            u.cpRead p k (u8 d 12) (u64 d 16) (2 * ranks) = v →
            let ids := fun (l : List Byte) => (List.range ranks).map fun r => u16 l (2 * r)
            let good := fun (l : List Byte) => (∀ x ∈ ids l, x ≤ 16383) ∧ (ids l).Nodup ∧ (ids l).getD (u16 d 2) 65535 = me
            (∀ l w, v = (some (l, false), w) → ¬ good l → run = .next (w.fail p k 0x42)) ∧
            (∀ l w, v = (some (l, false), w) → good l → ∃ t, run = .next t ∧
              let j := t.job i
              j.state = .joined ∧ j.part = p ∧ j.job = id ∧ j.rank = u16 d 2 ∧ j.ranks = ranks ∧ j.mode = u8 d 6 ∧ j.rule = u8 d 7 ∧
              j.len = u32 d 8 ∧ j.slot = u8 d 12 ∧ j.sfmt = u8 d 13 ∧ j.pfmt = u8 d 14 ∧ j.table = ids l ∧ j.stateVa = u64 d 24 ∧
              j.at_.whole = none ∧ ∀ h, h ≠ i → t.job h = w.job h))) ∧
    (∀ (b : List Byte) (k : Nat) (u : State), Begins 0x14 0 0 [(16, 48)] p n (joinArg 1 c) s b k u →
      let run := exec (.leave p n c) s
      let d := slice b 16 48
      let id := u16 d 0
      let ok := id < 4096 ∧ gapsZero d 0 [(0, 2), (15, 1)] = true ∧ u8 d 15 = 1
      (¬ ok → run = .next (u.fail p k 0x01)) ∧
      (ok → (u.sv.grant p 2 && u.sv.jobOk p id) = false → run = .next (u.fail p k 0x0A)) ∧
      (ok → (u.sv.grant p 2 && u.sv.jobOk p id) = true →
        (u.jobSlot id = none → run = .next u) ∧
        ∀ i, u.jobSlot id = some i →
          ((u.job i).part ≠ p → run = .next u) ∧
          ((u.job i).part = p → (u.job i).state ≠ .joined → run = .next (u.fail p k 0x43)) ∧
          ((u.job i).part = p → (u.job i).state = .joined →
            ∃ t, run = .next t ∧ t.job i = {} ∧ (∀ h, h ≠ i → t.job h = u.job h) ∧ t.parts = u.parts))))

/-- R384: RED_STEP on a JOINED job of the partition whose addresses pass their checks arms it: byte 0 of its outcome is zero, its parameters are kept, and the command waits; on the
step that was last whole it writes that outcome again and does not wait. -/
def Claims.StepsArm : Prop :=
  ∀ (p n : Nat) (c : List Byte) (s : State) (b : List Byte) (k : Nat) (u : State), Begins 0x15 0 0 [(16, 48)] p n c s b k u →
    let run := exec (.redStep p n c) s
    let d := slice b 16 48
    let id := u16 d 0
    let ok := id < 4096 ∧ u64 d 24 % 8 = 0 ∧ gapsZero d 0 [(0, 2), (4, 40)] = true
    (¬ ok → run = .next (u.fail p k 0x01)) ∧
    (ok → (u.sv.grant p 2 && u.sv.jobOk p id) = false → run = .next (u.fail p k 0x0A)) ∧
    (ok → (u.sv.grant p 2 && u.sv.jobOk p id) = true →
      ((∀ i, u.jobSlot id = some i → (u.job i).part ≠ p) → run = .next (u.fail p k 0x40)) ∧
      ∀ i, u.jobSlot id = some i → (u.job i).part = p →
        let j := u.job i
        let es := fmtSize j.sfmt
        let ep := if j.mode = 0 then 4 else fmtSize j.pfmt
        let size := if j.mode = 0 then min (240 * j.perRank) (4 * (j.len - min j.len (60 * j.rank * j.perRank))) else j.len * ep
        let aligned := u64 d 8 % es = 0 ∧ u64 d 16 % ep = 0
        let reads := u.rangeOk p j.slot (u64 d 8) (j.len * es) (Xl.mem · true false) = true
        let writes := u.rangeOk p j.slot (u64 d 16) size (Xl.mem · false true) = true
        let outcome := u.vwritable tlbNone p j.slot (u64 d 24) 8 = true
        let state := j.mode ≠ 1 ∨ u.rangeOk p j.slot j.stateVa j.stateSize (Xl.mem · true true) = true
        (¬ aligned → run = .next (u.fail p k 0x01)) ∧
        (aligned → j.state ≠ .joined → run = .next (u.fail p k 0x43)) ∧
        (aligned → j.state = .joined → ¬ reads → run = .next (u.fail p k 0x03 (u64 d 8))) ∧
        (aligned → j.state = .joined → reads → ¬ writes → run = .next (u.fail p k 0x03 (u64 d 16))) ∧
        (aligned → j.state = .joined → reads → writes → ¬ outcome → run = .next (u.fail p k 0x03 (u64 d 24))) ∧
        (aligned → j.state = .joined → reads → writes → outcome → ¬ state → run = .next (u.fail p k 0x03 j.stateVa)) ∧
        (aligned → j.state = .joined → reads → writes → outcome → state → ∃ t : State, run = .next t ∧
          let v : State := u.updJob i fun x => { x with args := {
            src := u64 d 8, dest := u64 d 16, outcome := u64 d 24, gscale := BitVec.ofNat 32 (u32 d 32)
            lr := BitVec.ofNat 32 (u32 d 36), bc2 := BitVec.ofNat 32 (u32 d 40), cmd := k, ring := (u.cmd p k).ring } }
          let wrote := fun (l : List Byte) => (v.redWrite (v.job i) (u64 d 24) l).mem.dev
          (t.job i).args = (v.job i).args ∧
          (j.at_.whole ≠ some (u32 d 4) → (t.job i).step = u32 d 4 ∧ (t.job i).state = .armed ∧ (t.cmd p k).wait = .red i ∧ t.mem.dev = wrote [0#8]) ∧
          (j.at_.whole = some (u32 d 4) → (t.job i).step = j.step ∧ (t.job i).state = .joined ∧
            t.mem.dev = wrote (leBytes 8 (1 + 0xFFFF * 2 ^ 16 + u32 d 4 * 2 ^ 32)))))

/-- R202, R203, R207, R210, R223 to R225: what happens at a channel: training gives it its pages or death; a refresh counts; a write-combining entry leaves; a retrain or a
repair that is due holds it when a window or the absence of windows allows, an urgent one at once; the hold's end brings it back, its expiry is its death. -/
def Claims.ChannelEvents : Prop :=
  (∀ (failed : List Nat) (s : State),
    ((s.rel 4 = false ∨ s.mem.trained = true) → exec (.channelTrainingEnd failed) s = .next s) ∧
    (s.rel 4 = true → s.mem.trained = false → ∃ t, exec (.channelTrainingEnd failed) s = .next t ∧ t.mem.trained = true ∧ t.mem.dev = s.mem.dev ∧
      ∀ c < 512, (s.chan c).state = .training →
        t.chan c = if failed.contains c then { s.chan c with state := .dead }
          else { s.chan c with state := .live, pages := 24576, scrubAt := s.clk })) ∧
  (∀ (pch : Nat) (s : State),
    ((s.chan (pch / 2)).state ≠ .live → exec (.refresh pch) s = .next s) ∧
    ((s.chan (pch / 2)).state = .live → (s.chan (pch / 2)).refs.length = 2 → ∃ t, exec (.refresh pch) s = .next t ∧
      (t.chan (pch / 2)).refs.getD (pch % 2) 0 = (s.chan (pch / 2)).refs.getD (pch % 2) 0 + 1 ∧
      (t.chan (pch / 2)).refs.getD (1 - pch % 2) 0 = (s.chan (pch / 2)).refs.getD (1 - pch % 2) 0 ∧ t.mem.dev = s.mem.dev)) ∧
  (∀ (sl i : Nat) (s : State),
    let x := Tab.get {} s.mem.slices sl
    (x.wc[i]? = none → exec (.wcEntryTimeout sl i) s = .next s) ∧
    ∀ e, x.wc[i]? = some e →
      ((s.chan (e.line / 2 ^ 24)).state = .held → exec (.wcEntryTimeout sl i) s = .next s) ∧
      ((s.chan (e.line / 2 ^ 24)).state ≠ .held → s.deadAt (e.line * 128) = false → s.mem.flips = [] →
        ∃ t, exec (.wcEntryTimeout sl i) s = .next t ∧
        Tab.get {} t.mem.slices sl = { x with wc := x.wc.eraseIdx i } ∧ Tab.get 0 t.ckw.act 8 = Tab.get 0 s.ckw.act 8 + wcBursts e.mask ∧
        t.mem.dev = s.mem.dev) ∧
      ((s.chan (e.line / 2 ^ 24)).state ≠ .held → s.deadAt (e.line * 128) = true → ∃ t, exec (.wcEntryTimeout sl i) s = .next t ∧
        Tab.get {} t.mem.slices sl = { x with wc := x.wc.eraseIdx i } ∧ t.mem.dev = s.mem.dev)) ∧
  (∀ (ch : Nat) (s : State),
    let c := s.chan ch
    let alone := ∀ d ∈ stackOf ch, d ≠ ch → (s.chan d).dueOp = .none
    let becomes := fun (row : Instr) (x : Chan) => ∃ t, exec row s = .next t ∧ t.chan ch = x ∧ t.mem.dev = s.mem.dev ∧ t.gangs = s.gangs
    ((c.state ≠ .live ∨ c.due ≠ .none) → exec (.phyMarginLoss ch) s = .next s) ∧
    (c.state = .live → c.due = .none → alone → (s.noWindows = false ∨ s.stackHeld ch = true) → becomes (.phyMarginLoss ch) { c with due := .retrain }) ∧
    (c.state = .live → c.due = .none → alone → s.noWindows = true → s.stackHeld ch = false →
      becomes (.phyMarginLoss ch) { c with state := .held, hold := .retrain }) ∧
    (c.state ≠ .live → exec (.urgentRetrain ch) s = .next s) ∧
    (c.state = .live → s.stackHeld ch = true → becomes (.urgentRetrain ch) { c with due := .urgent }) ∧
    (c.state = .live → s.stackHeld ch = false → becomes (.urgentRetrain ch) { c with state := .held, hold := .urgent, due := .none }) ∧
    (∀ stuck, c.state ≠ .held → exec (.channelHoldEnd ch stuck) s = .next s) ∧
    (c.state = .held → alone → c.due = .none → (∀ e ∈ s.parts, ∀ k ∈ e.2.cmds, k.2.wait ≠ .copies) →
      (c.failed = [] → c.hold ≠ .repair → becomes (.channelHoldEnd ch none) { c with state := .live, hold := .none }) ∧
      (∀ lane, c.failed = [lane] → c.hold = .repair → becomes (.channelHoldEnd ch none) { c with
        state := .live, hold := .none, failed := [], spares := c.spares.set (lane / 36) (c.spares.getD (lane / 36) 0 + 1),
        syms := c.syms.filter fun e => e.1 != lane })) ∧
    (c.state ≠ .held → exec (.channelHoldExpiry ch) s = .next s) ∧
    (c.state = .held → (∀ e ∈ s.parts, ∀ k ∈ e.2.cmds, k.2.wait ≠ .copies) →
      ∃ t, exec (.channelHoldExpiry ch) s = .next t ∧ t.chan ch = { c with state := .dead, hold := .none, due := .none, failed := [] })) ∧
  ∀ (left k : Nat) (s : State), k < 16 →
    let low := (stackOf (32 * k)).find? fun c => (s.chan c).state == .live && (s.chan c).dueOp != .none && decide ((s.chan c).dueOp.need ≤ left)
    (s.stackHeld (32 * k) = false → ∀ c, low = some c → ((s.windowHolds left).chan c).state = .held ∧ ((s.windowHolds left).chan c).hold = (s.chan c).dueOp)

/-- R211, R213, R215, R216: a patrol scrub reads the channel's next line while lines are owed in an open window, or at any time where no window is to come; a line without errors
stays as it is, and so does one with one wrong symbol, which is counted, and in a line that is not dirty rewritten right. -/
def Claims.PatrolScrubReadsNext : Prop :=
  ∀ (ch : Nat) (flips : List Flip) (s : State),
    let c := s.chan ch
    let last := c.lines ≤ c.next + 1
    let line := ch * 2 ^ 24 + c.next
    let v := s.disturb flips
    let reads := c.state = .live ∧ c.lines ≠ 0 ∧ (s.noWindows = true ∨ (s.tim.cad.window ≠ none ∧ c.owed ≠ 0)) ∧ v.lineHeld (line * 128) = false
    (¬ reads → exec (.patrolScrub ch flips) s = .next v) ∧
    (reads → s.mem.flips = [] →
      (flips = [] → ∃ t, exec (.patrolScrub ch flips) s = .next t ∧ t.mem.dev = s.mem.dev ∧ (∀ l, Tab.get 0 t.mem.poison l = Tab.get 0 s.mem.poison l) ∧
        t.mem.ceTotal = s.mem.ceTotal ∧ t.flash = s.flash ∧
        t.chan ch = { c with owed := c.owed - 1, next := if last then 0 else c.next + 1, passes := if last then c.passes + 1 else c.passes }) ∧
      (∀ f, flips = [f] → f.line = line → f.cw < 8 → f.sym < 36 → 1 ≤ f.err → f.err ≤ 15 → bit (Tab.get 0 s.mem.poison line) f.cw = false →
        ∃ t, exec (.patrolScrub ch flips) s = .next t ∧ t.mem.dev = s.mem.dev ∧ t.mem.ceTotal = min (s.mem.ceTotal + 1) 0xFFFFFFFF ∧
          (s.dirtyLine line = false → t.mem.flips = [])))

/-- R259 to R261: a coherent agent's requests at a line's home: a read makes it a sharer, a read for ownership the owner, a writeback a sharer again, an eviction neither; what an
owner writes the line then holds. R416, R417: a Crew agent's access outside the reserved pages is refused. An agent that does not answer loses its lines, which are poisoned, and its abort strikes what it is. -/
def Claims.AgentsAtTheHome : Prop :=
  (∀ (a line : Nat) (s : State), a ≤ 88 → line < 2 ^ 33 → s.rel 4 = true →
    (81 ≤ a → s.dpt.crewUp = true ∧ s.reservedPage (line * 128) = true) →
    let e := s.dirEntry line
    let read := fun (t : State) (n : Nat) => t.devRead (line * 128) n
    (e.owner = some a → exec (.agentRequest a line .read) s = .next s) ∧
    (e.owner ≠ some a → ∃ t, exec (.agentRequest a line .read) s = .next t ∧ a ∈ (t.dirEntry line).sharers ∧
      (s.mem.flips = [] → t.mem.dev = s.mem.dev) ∧
      (16 ≤ a → a ∉ e.sharers → (t.dirEntry line).owner = none ∧ ∀ o, e.owner = some o → o ∈ (t.dirEntry line).sharers)) ∧
    (∀ d, d.length ≤ 128 → s.deadAt (line * 128) = false → s.mem.flips = [] → ∃ v, exec (.agentRequest a line (.own d)) s = .next (State.semCheck v) ∧
      (v.dirEntry line).owner = some a ∧ (e.owner ≠ some a → (v.dirEntry line).sharers = []) ∧ read v d.length = d) ∧
    (∀ d, e.owner ≠ some a → exec (.agentRequest a line (.writeback d)) s = .next s) ∧
    (∀ d, e.owner = some a → d.length ≤ 128 → s.deadAt (line * 128) = false → s.mem.flips = [] →
      ∃ v, exec (.agentRequest a line (.writeback d)) s = .next (State.semCheck v) ∧ v.dirEntry line = { sharers := [a], owner := none } ∧
        read v d.length = d) ∧
    exec (.agentRequest a line .evict) s =
      .next (s.setDir line (e.without a))) ∧
  (∀ (a line : Nat) (r : AgentReq) (s : State), (88 < a ∨ 2 ^ 33 ≤ line ∨ s.rel 4 = false) → exec (.agentRequest a line r) s = .next s) ∧
  (∀ (a line : Nat) (d : List Byte) (s : State), 81 ≤ a → a ≤ 88 → line < 2 ^ 33 → s.rel 4 = true →
    ∀ r ∈ [AgentReq.read, .own d],
      (s.dpt.crewUp = false → exec (.agentRequest a line r) s = .next s) ∧
      (s.dpt.crewUp = true → s.reservedPage (line * 128) = false → s.dpt.violated = true → exec (.agentRequest a line r) s = .next s) ∧
      (s.dpt.crewUp = true → s.reservedPage (line * 128) = false → s.dpt.violated = false → exec (.agentRequest a line r) s = .next
        (State.crewFail (State.reportDev { s with dpt := { s.dpt with violated := true } } 0x0013 8 a (line * 128) [] true) (a - 81) 2))) ∧
  (∀ (a line : Nat) (s : State), 81 ≤ a → a ≤ 88 → line < 2 ^ 33 → s.rel 4 = true →
    (∀ d, (s.dirEntry line).owner ≠ some a → exec (.agentRequest a line (.writeback d)) s = .next s) ∧
    exec (.agentRequest a line .evict) s = .next (s.setDir line ((s.dirEntry line).without a))) ∧
  ∀ (a line : Nat) (s : State),
    let e := s.dirEntry line
    (e.owner ≠ some a → a ∉ e.sharers → exec (.agentTimeout a line) s = .next s) ∧
    ((e.owner = some a ∨ a ∈ e.sharers) → ∃ v : State,
      exec (.agentTimeout a line) s = .next
        (if a < 16 then (List.range 8).foldl (fun s n => s.guilty a n 2) v else if a < 80 then v.engineAbort (a - 16)
         else if a = 80 then v.deputyDown 3 else v.crewFail (a - 81) 3) ∧
      v.dirEntry line = {} ∧ (∀ l, (v.dirEntry l).owner ≠ some a) ∧ (s.deadAt (line * 128) = false → Tab.get 0 v.mem.poison line = 255) ∧
      v.mem.dev = s.mem.dev ∧ v.gangs = s.gangs ∧ v.parts = s.parts)

/-- R398, R399, R407, R408: a host's BAR2 read is answered with what its home slices hold, its write reaches them; a miss, a peer's request outside a landing tensor, an absent or disabled
function, and a port that is not ready each end as the rule says. -/
def Claims.Bar2Requests : Prop :=
  (∀ (r : HostReq) (len : Nat) (data : List Byte) (s : State),
    let q := 16 * r.port + r.fn
    let answer := fun (t : State) (d : List Byte) (poisoned ok : Bool) => t.send r.port (.completion d poisoned ok)
    let inside := fun (n : Nat) => n ≠ 0 ∧ r.off + n ≤ 2 ^ s.bar2Log q
    let reported : State := s.send r.port (.unsupported r.fn)
    let missed : State → State := fun t => t.updPort r.port fun x => { x with bar2Miss := min (x.bar2Miss + 1) 0xFFFF }
    let refused : State → State := fun t => t.updPort r.port fun x => { x with peerRefused := min (x.peerRefused + 1) 0xFFFF }
    (s.bar2Reach r = 0 → exec (.bar2Read r len) s = .next s ∧ exec (.bar2Write r data) s = .next s) ∧
    (s.bar2Reach r = 1 → exec (.bar2Read r len) s = .next (answer s [] false false) ∧ exec (.bar2Write r data) s = .next reported) ∧
    (s.bar2Reach r = 2 →
      (inside len →
        (s.fromHost r = false → exec (.bar2Read r len) s = .next (refused (answer s [] false false))) ∧
        (s.fromHost r = true →
          ((s.bar2Bind q = none ∨ ∃ p slot, s.bar2Bind q = some (p, slot) ∧ s.bar2Pieces p slot r.off len false = none) →
            exec (.bar2Read r len) s = .next (missed (answer s (List.replicate len 0xFF#8) false true))) ∧
          ∀ p slot l, s.bar2Bind q = some (p, slot) → s.bar2Pieces p slot r.off len false = some l → (∀ e ∈ l, s.lineHeld e.2.1 = false) → s.mem.flips = [] →
            ∃ v : State, exec (.bar2Read r len) s =
              .next (answer v (l.flatMap fun e => s.devRead e.2.1 e.2.2) (l.any fun e => s.poisonAt e.2.1) true) ∧ v.mem.dev = s.mem.dev ∧ v.gangs = s.gangs)) ∧
      (inside data.length →
        (s.bar2Bind q = none → exec (.bar2Write r data) s = .next (if s.fromHost r then missed s else refused reported)) ∧
        ∀ p slot, s.bar2Bind q = some (p, slot) →
          (s.fromHost r = false → s.landing p slot r.off data.length = false → exec (.bar2Write r data) s = .next (refused reported)) ∧
          ((s.fromHost r = true ∨ s.landing p slot r.off data.length = true) →
            (s.bar2Pieces p slot r.off data.length true = none → exec (.bar2Write r data) s = .next (missed s)) ∧
            ∀ l, s.bar2Pieces p slot r.off data.length true = some l → s.mem.flips = [] → ∃ v : State, exec (.bar2Write r data) s = .next (State.semCheck v) ∧
              v.mem.dev = (l.foldl (fun t e => t.devWrite e.2.1 (slice data e.1 e.2.2)) s).mem.dev ∧ v.gangs = s.gangs)))) ∧
  (∀ (r : HostReq) (s : State), r.port < 2 → r.fn < 16 → s.rel 2 = true → s.rst.tripped = false → (s.port r.port).dom = .ready →
    s.bar2Reach r = if s.fnOn (16 * r.port + r.fn) = true ∧ (s.fn (16 * r.port + r.fn)).cfg.memEn = true ∧
      (s.fn (16 * r.port + r.fn)).cfg.d3 = false ∧ (s.port r.port).dataOk = true then 2 else 1) ∧
  ∀ (r : HostReq) (s : State), (s.port r.port).dom ≠ .ready → s.bar2Reach r = 0

/-- R194, R303, R305, R395, R406: a host's completion frees its tag for the oldest read that waits for one, and reaches what waits under it: a load's lane, a copy's bytes, the word of a COND, the release of an
ordered signal; one under no tag changes nothing. -/
def Claims.HostCompletionsDeliver : Prop :=
  ∀ (port tag : Nat) (ok : Bool) (data : List Byte) (s : State),
    let run := exec (.hostCompletion port tag ok data) s
    let u := State.sendAsks port 1 (s.updPort port fun x => { x with reqs := Tab.set none x.reqs tag none })
    let at_ := Tab.get none (s.port port).reqs tag
    (at_ = none → run = .next s) ∧
    (∀ g id lane, at_ = some (.load g id lane) → run = .next (u.laneAnswer g id lane (leVal data) (!ok))) ∧
    (∀ p k idx dst addr n e, at_ = some (.copy p k idx dst addr n e) → run = .next (u.copyAnswer p k idx dst addr (padTo n data) (!ok) e)) ∧
    (∀ fn a n w l g, (s.port port).asks = (fn, a, n, w) :: l → at_ ≠ none → (s.port port).dom = .ready →
      HostPort.freeTag { s.port port with reqs := Tab.set none (s.port port).reqs tag none } = some g →
      HostTx.read fn a n g ∈ (u.port port).out ∧ (u.port port).asks = l ∧ Tab.get none (u.port port).reqs g = some w) ∧
    (∀ p k e, at_ = some (.word p k e) → (s.cmd p k).op = 8 →
      (ok = false → run = .next (u.fail p k 0x04 (u64 (s.cmd p k).bytes 16))) ∧
      (ok = true → testHolds (s.cmd p k).bytes (leVal (padTo 8 data)) = true → run = .next (u.skipNext p k (u16 (s.cmd p k).bytes 26))) ∧
      (ok = true → testHolds (s.cmd p k).bytes (leVal (padTo 8 data)) = false → run = .next (u.await p k .done))) ∧
    (∀ p k e, at_ = some (.word p k e) → (s.cmd p k).op = 9 →
      (ok = false → run = .next (u.endLoop p k 0x04)) ∧
      (ok = true → testHolds (s.cmd p k).bytes (leVal (padTo 8 data)) = true → run = .next (u.endLoop p k 0)) ∧
      (ok = true → testHolds (s.cmd p k).bytes (leVal (padTo 8 data)) = false → run = .next (u.nextLoop p k))) ∧
    (∀ p k, at_ = some (.xport p k) → ok = true →
      let v := u.updCmd p k fun c => { c with xports := c.xports - 1 }
      ((s.cmd p k).xports > 1 → run = .next v) ∧
      ((s.cmd p k).xports ≤ 1 → (s.cmd p k).op ≠ 0x0F → run = .next (v.signal p k)) ∧
      ((s.cmd p k).xports ≤ 1 → (s.cmd p k).op = 0x0F → run = .next (v.completeGo p k).semCheck))

/-- R427, R428, R434, R472: a mailbox that holds an operation is BUSY; a reserved or unserved operation, one refused in Refuge and one the function may not request end at once with their codes; any
other runs when the Deputy is free, else waits, and an update waits for a Survey operation that came before it. -/
def Claims.MailboxRequests : Prop :=
  ∀ (q slot : Nat) (s : State), s.hears q = true → s.rel 0 = true → q ≠ 32 →
    ∀ e ∈ [(Instr.fwUpdate q slot, 1, slot % 2), (.svnCommit q, 2, 0), (.ownerKey q, 3, 0), (.retirePage q, 4, 0), (.claimPrimary q, 5, 0), (.debugLock q, 6, 0)],
      let m := (s.fn q).mail
      let op := e.2.1
      let asked : FnMail := { m with op := op, slot := e.2.2, code := 0, result := 0 }
      let free := m.state ≠ 1 ∧ m.state ≠ 2
      let served := (s.dpt.rom = true → op = 1) ∧ (s.rst.refuge ≠ 0 → op ≤ 2)
      let may := match op with
        | 4 => True
        | 5 => q < 32 ∧ q % 16 = 0 ∧ q / 16 ≠ s.primary
        | _ => q = 33 ∨ q = s.primary * 16
      (¬ free → MailTo e.1 q s { m with code := 1 }) ∧
      (free → s.dpt.rom = true → op ≠ 1 → MailTo e.1 q s { asked with state := 4, code := 2 }) ∧
      (free → s.dpt.rom = false → s.rst.refuge ≠ 0 → 2 < op → MailTo e.1 q s { asked with state := 4, code := 0x0C }) ∧
      (free → served → ¬ may → MailTo e.1 q s { asked with state := 4, code := 3 }) ∧
      (free → served → may → (s.dpt.up = false ∨ s.dpt.running ≠ none) → MailTo e.1 q s { asked with state := 1 }) ∧
      (free → served → may → s.dpt.up = true → s.dpt.running = none → op = 1 → s.srv.state.busy = true → s.srv.behind = false → (∀ h < 34, h ≠ q → (s.fn h).mail.state ≠ 1) →
        MailTo e.1 q s { asked with state := 1 }) ∧
      (free → served → may → s.dpt.up = true → s.dpt.running = none → q < 34 → (op = 1 → s.srv.state.busy = false ∨ s.srv.behind = true) →
        (∀ h < q, (s.fn h).mail.state ≠ 1) →
        MailTo e.1 q s { asked with state := 2 } ∧ ∀ t, exec e.1 s = .next t → t.dpt.running = some q)

/-- R218, R402, R420, R425 to R428, R431: how each operation ends: its code and RESULT, and what it writes: an image that passes the checks of R420, raised counters, an owner key, a retired page,
the primary role, the end of every unlock. Then the lowest pending mailbox is taken. -/
def Claims.MailboxOperationsEnd : Prop :=
  (∀ (blk : Option (List Byte)) (flashOk : Bool) (s : State),
    ((s.dpt.running = none ∨ s.dpt.up = false) → exec (.mailboxOperationEnd blk flashOk) s = .next s) ∧
    ∀ q, s.dpt.running = some q → s.dpt.up = true → s.dpt.rom = false →
      let m := (s.fn q).mail
      let ends := fun (o : MailOut) =>
        exec (.mailboxOperationEnd blk flashOk) s = .next (State.mailNext (State.mailEnd { o.2.2 with dpt := { o.2.2.dpt with running := none } } q o.1 o.2.1))
      (m.op = 1 → ends (mailUpdate m.slot blk flashOk s)) ∧ (m.op = 2 → ends (mailCommit flashOk s)) ∧ (m.op = 3 → ends (mailKey blk flashOk s)) ∧
      (m.op = 4 → ends (mailRetire q m.arg flashOk s)) ∧ (m.op = 5 → ends (mailClaim q s)) ∧ (m.op = 6 → ends (0, 0, s.lockJtag 0 false))) ∧
  (∀ (b : List Byte) (s : State), s.fwCheck b = 0 →
    slice b 0 4 = ascii "OZFW" ∧ (u8 b 4 = 1 ∨ u8 b 4 = 2) ∧ u16 b 6 = 0x0100 ∧ u32 b 0x14 / 256 = 0x4A09B0 ∧ u32 b 0x0C % 64 = 0 ∧
    u32 b 0x0C ≤ (if u8 b 4 = 1 then 261888 else 33554176) ∧ Config.sha256 (slice b 0x40 64) = Config.vendorKeyHash ∧
    Config.ecdsaVerify (slice b 0x40 64) (Config.sha256 (b.take 0x80)) (slice b 0x80 64) = true ∧
    (s.flash.counters.getD (u8 b 4 - 1) (0, 0)).1 ≤ u32 b 8 ∧ Config.sha256 (slice b 256 (u32 b 0x0C)) = slice b 0x20 32) ∧
  (∀ (slot : Nat) (b : List Byte) (flashOk : Bool) (s : State), s.dpt.rom = false →
    let o := mailUpdate slot (some b) flashOk s
    let img : FwImg := { ok := flashOk, svn := u32 b 8, meas := Config.sha256 (b.take (256 + u32 b 0x0C)), img := some (b.take (256 + u32 b 0x0C)) }
    mailUpdate slot none flashOk s = (4, 0, s) ∧ (s.fwCheck b ≠ 0 → o = (s.fwCheck b, 0, s)) ∧
    (s.fwCheck b = 0 → o.1 = (if flashOk then 0 else 0x0F) ∧ o.2.1 = 0 ∧
      o.2.2.flash = (if u8 b 4 = 2 then { s.flash with crew := img } else if slot = 0 then { s.flash with dep0 := img } else { s.flash with dep1 := img }))) ∧
  (∀ (k v : Nat) (s : State), k < s.flash.counters.length →
    let c := s.flash.counters.getD k (0, 0)
    (v ≤ c.1 → s.raiseCounter k v = some s) ∧ (c.1 < v → c.2 = 0 → s.raiseCounter k v = none) ∧
    (c.1 < v → c.2 ≠ 0 → ∃ t, s.raiseCounter k v = some t ∧ t.flash.counters.getD k (0, 0) = (v, c.2 - 1) ∧
      (∀ j, j ≠ k → t.flash.counters.getD j (0, 0) = s.flash.counters.getD j (0, 0)) ∧ t.flash.keys = s.flash.keys)) ∧
  (∀ s : State, s.flash.counters.length = 4 → (∀ c ∈ s.flash.counters, c.2 ≠ 0) →
    (mailCommit true s).1 = 0 ∧ (mailCommit true s).2.1 = max s.dpt.svn (s.flash.counters.getD 0 (0, 0)).1 ∧
    ((mailCommit true s).2.2.flash.counters.getD 1 (0, 0)).1 = max s.dpt.crewSvn (s.flash.counters.getD 1 (0, 0)).1) ∧
  (∀ (b : List Byte) (s : State),
    let id := u32 b 0
    let epoch := (s.flash.counters.getD 2 (0, 0)).1
    let o := mailKey (some b) true s
    o.1 = 0 → u32 b 8 = epoch + 1 ∧ (u64 b 16 = 0 ∨ u64 b 16 = Config.devSerial.toNat) ∧ id ≠ 0 ∧
      (u8 b 4 = 1 → s.flash.keys.length < 4 ∧ (∀ k ∈ s.flash.keys, k.1 ≠ id) ∧ o.2.2.flash.keys = s.flash.keys ++ [(id, slice b 24 64)]) ∧
      (u8 b 4 = 2 → (∃ k ∈ s.flash.keys, k.1 = id) ∧ ∀ k, k ∈ o.2.2.flash.keys ↔ k ∈ s.flash.keys ∧ k.1 ≠ id) ∧
      (∃ k, Config.ecdsaVerify k (Config.sha256 (b.take 88)) (slice b 88 64) = true ∧
        (if s.flash.keys = [] then k = slice b 24 64 else (u32 b 12, k) ∈ s.flash.keys)) ∧
      (3 ≤ s.flash.counters.length → (o.2.2.flash.counters.getD 2 (0, 0)).1 = epoch + 1)) ∧
  (∀ (q arg : Nat) (flashOk : Bool) (s : State),
    let page := arg / 65536 * 65536
    let o := mailRetire q arg flashOk s
    let mine := (∃ p, s.holder (paChan arg) (paPage arg) = some p ∧ (s.bound q).contains p = true) ∨ s.isPrimaryPf q = true
    let names := arg < 2 ^ 40 ∧ paPage arg < s.pagesOn (paChan arg) ∧ mine
    (¬ names → o = (0x0B, 0, s)) ∧ (names → s.flash.retired.contains page = true → o = (0, 0, s)) ∧
    (names → s.flash.retired.contains page = false → 65536 ≤ s.flash.retired.length → o = (0x0A, 0, s)) ∧
    (names → s.flash.retired.contains page = false → s.flash.retired.length < 65536 → flashOk = true →
      o.1 = 0 ∧ o.2.2.flash.retired = s.flash.retired ++ [page])) ∧
  (∀ (q : Nat) (s : State), q < 32 →
    let x := s.port s.primary
    let ok := x.dom ≠ .ready ∧ x.badAt + 1000000000 ≤ s.clk ∧ q / 16 ≠ s.primary
    (¬ ok → mailClaim q s = (0x0C, 0, s)) ∧ (ok → (mailClaim q s).1 = 0 ∧ (mailClaim q s).2.2.primary = q / 16)) ∧
  ∀ s : State, (s.lockJtag 0 false).dpt.unlock = 0 ∧ (s.lockJtag 0 false).dpt.unlockCrew = false

/-- R431: an unlock block is accepted when it answers the challenge and is signed as the rule asks; it raises counter 3, spends the challenge and opens the mask's partitions; any other changes
nothing. -/
def Claims.JtagUnlock : Prop :=
  (∀ s : State,
    (s.dpt.up = false → exec .unlockChallenge s = .next s) ∧
    (s.dpt.up = true →
      let d := leBytes 8 Config.devSerial.toNat ++ leBytes 4 (s.flash.counters.getD 3 (0, 0)).1 ++ padTo 16 (Config.nonce s.dpt.nonces)
      exec .unlockChallenge s = .next { s with dpt := { s.dpt with nonces := s.dpt.nonces + 1, challenge := some d } })) ∧
  ∀ (b : UnlockBlk) (s : State),
    let mask := b.mask % 65536
    let h := Config.sha256 (b.challenge ++ leBytes 2 mask ++ leBytes 1 (b2n b.crew))
    let allowed := ∀ p < 16, bit mask p = true → s.sv.valid p = true ∧ s.sv.jtagDebug p = true
    let owner := ∃ id k, b.key = some id ∧ (s.flash.keys.find? fun x => x.1 == id) = some k ∧ b.crew = false ∧ allowed ∧ Config.ecdsaVerify k.2 h b.sig = true
    let vendor := b.key = none ∧ Config.sha256 b.vendorPub = Config.vendorKeyHash ∧ Config.ecdsaVerify b.vendorPub h b.sig = true ∧ (b.crew = true ∨ allowed)
    let ok := s.dpt.up = true ∧ s.dpt.challenge = some b.challenge ∧ (owner ∨ vendor)
    (¬ ok → exec (.unlock b) s = .next s) ∧
    (ok → 4 ≤ s.flash.counters.length → (s.flash.counters.getD 3 (0, 0)).2 = 0 → exec (.unlock b) s = .next s) ∧
    (ok → 4 ≤ s.flash.counters.length → (s.flash.counters.getD 3 (0, 0)).2 ≠ 0 → ∃ t, exec (.unlock b) s = .next t ∧
      t.dpt.challenge = none ∧ t.dpt.unlock = s.dpt.unlock ||| mask ∧ t.dpt.unlockCrew = (s.dpt.unlockCrew || b.crew) ∧
      (t.flash.counters.getD 3 (0, 0)).1 = (s.flash.counters.getD 3 (0, 0)).1 + 1 ∧ t.gangs = s.gangs ∧ t.mem = s.mem)

/-- R416, R417, R432, R433: what the Crew may reach, what a refused access does, a Crew failure and the reload, and the Deputy's own reset and restart. -/
def Claims.CrewAndDeputyFail : Prop :=
  (∀ (core : Nat) (r : CrewRes) (wr : Bool) (addr v : Nat) (s : State),
    let run := exec (.crewAccess core r wr addr v) s
    let may := crewMay r wr = true ∧ (r = .reserved → s.reservedPage addr = true) ∧ s.dpt.crewIn r addr = true
    let refused : State := if wr then s else { s with dpt := { s.dpt with crewRead := 0 } }
    (s.dpt.crewUp = false → run = .next s) ∧
    (s.dpt.crewUp = true → ¬ may → s.dpt.violated = true → run = .next refused) ∧
    (s.dpt.crewUp = true → ¬ may → s.dpt.violated = false → run = .next
      (State.crewFail (State.reportDev { refused with dpt := { refused.dpt with violated := true } } 0x0013 8 (81 + core % 8) addr [] true) core 2)) ∧
    (s.dpt.crewUp = true → r = .crewWork → s.dpt.crewIn r addr = true → wr = true →
      run = .next { s with dpt := { s.dpt with crewMem := s.dpt.crewMem.write addr (leBytes 8 v) } }) ∧
    (s.dpt.crewUp = true → r = .crewWork → s.dpt.crewIn r addr = true → wr = false →
      run = .next { s with dpt := { s.dpt with crewRead := leVal (s.dpt.crewMem.read addr 8) } }) ∧
    (s.dpt.crewUp = true → r = .crewImage → s.dpt.crewIn r addr = true → wr = false →
      run = .next { s with dpt := { s.dpt with crewRead := s.dpt.imageWord addr } }) ∧
    (s.dpt.crewUp = true → r ∈ [.front, .srv, .readOnly] → s.dpt.crewIn r addr = true →
      (wr = true → r = .front → run = .next (s.busWrite (s.who 33) addr 8 v)) ∧
      (wr = false → ∃ t x, s.busRead (s.who 33) addr 8 = (x, t) ∧ run = .next { t with dpt := { t.dpt with crewRead := x } })) ∧
    (∀ d : Dpt, ∀ img, d.crewImg = some img → (d.crewIn .crewImage addr = true ↔ addr + 8 ≤ img.length) ∧
      (d.crewIn .crewWork addr = true ↔ img.length ≤ addr ∧ addr + 8 ≤ 48 * 2 ^ 20)) ∧
    (s.dpt.crewUp = true → r = .ckwCounters → wr = false → run = .next { s with dpt := { s.dpt with crewRead := Tab.get 0 s.ckw.act addr } }) ∧
    (s.dpt.crewUp = true → r = .reserved → s.reservedPage addr = true → wr = true → ∃ t, run = .next t ∧
      t.mem.dev = (s.devWrite (addr / 8 * 8) (leBytes 8 v)).mem.dev) ∧
    (s.dpt.crewUp = true → r = .reserved → s.reservedPage addr = true → wr = false → ∃ t, run = .next t ∧ t.mem.dev = s.mem.dev ∧
      t.dpt.crewRead = leVal (s.devRead (addr / 8 * 8) 8))) ∧
  (∀ (core cause : Nat) (s : State),
    let recent := (s.dpt.crewFails.filter fun t => decide (s.clk < t + 60000000000)) ++ [s.clk]
    exec (.crewHeartbeatMiss core) s = .next (s.crewFail core 1) ∧ (s.dpt.crewUp = false → s.crewFail core cause = s) ∧
    (s.dpt.crewUp = true → (s.crewFail core cause).dpt.crewUp = false ∧ (s.crewFail core cause).dpt.crewFails = recent ∧
      ((s.crewFail core cause).dpt.crewStopped = true ↔ s.dpt.crewStopped = true ∨ 4 ≤ recent.length) ∧ (s.crewFail core cause).parts = s.parts ∧
      (s.crewFail core cause).gangs = s.gangs)) ∧
  (∀ s : State,
    let ok := s.dpt.crewUp = false ∧ s.dpt.crewStopped = false ∧ s.dpt.up = true ∧ 5 ≤ s.rst.stage ∧ s.rst.refuge = 0 ∧ s.crewGood = true
    (¬ ok → exec .crewReloadEnd s = .next s) ∧
    (ok → ∃ t, exec .crewReloadEnd s = .next t ∧ t.dpt.crewUp = true ∧ t.dpt.violated = false ∧ t.dpt.crewSvn = s.flash.crew.svn ∧
      t.dpt.crewMeas = s.flash.crew.meas ∧ t.dpt.crewImg = s.flash.crew.img)) ∧
  (∀ (cause : Nat) (s : State),
    (s.dpt.up = false → exec (.deputySelfReset cause) s = .next s) ∧
    (s.dpt.up = true → ∃ t, exec (.deputySelfReset cause) s = .next t ∧ t.dpt.up = false ∧ t.dpt.why = some cause ∧ t.dpt.challenge = none ∧
      t.dpt.running = none ∧ t.rst = { s.rst with dptSelf := min (s.rst.dptSelf + 1) 0xFF } ∧
      (∀ q, s.dpt.running = some q → (t.fn q).mail.state = 4 ∧ (t.fn q).mail.code = 0x10) ∧
      (∀ q, s.dpt.running ≠ some q → (t.fn q).mail = (s.fn q).mail) ∧
      (s.srv.state ∈ [.fetching, .validating, .draining, .waiting] → t.srv.state = .failed ∧ t.srv.code = 0x17) ∧
      (s.srv.state = .storing → s.srv.op = 3 → t.srv.state = .failed ∧ t.srv.code = 0x17) ∧
      (s.srv.state = .applying → { t.srv with behind := s.srv.behind } = s.srv) ∧ t.mem = s.mem ∧ t.gangs = s.gangs) ∧
    (s.dpt.why = none → exec .deputyRestartEnd s = .next s) ∧
    (s.dpt.why ≠ none → ∃ t, exec .deputyRestartEnd s = .next t ∧ t.dpt.why = none ∧ t.dpt.up = true ∧
      (∀ i r img, s.pickDeputy true true = some (i, r, img) → t.dpt.rom = false ∧ t.dpt.slot = i ∧ t.dpt.fallback = r ∧ t.dpt.svn = img.svn ∧ t.dpt.meas = img.meas) ∧
      (s.pickDeputy true true = none → t.dpt.rom = true ∧ t.rst.refuge = if s.rst.stage < 4 ∧ s.rst.refuge = 0 then 4 else s.rst.refuge)))

/-- R456 to R458, R461, R463, R464, R473, R505, R506: the pins, the watchdog, the sequencer, a fatal die error, software's request and the way out of Refuge each lead to the full reset of their cause, and to nothing
where their condition fails. (No firmware update runs.) -/
def Claims.FullResets : Prop :=
  (∀ (s : State), s.dpt.running = none →
    let low : State := { s with rst := { s.rst with pwrGood := false } }
    (s.rst.pwrGood = true → exec .pwrGoodFall s = .next (resetBy 1 low) ∧ exec .railUndervoltage s = .next (resetBy 1 low)) ∧
    (s.rst.pwrGood = false → exec .pwrGoodFall s = .next s ∧ exec .railUndervoltage s = .next s) ∧
    (∀ ns, (ns < 100 ∨ s.rst.sysRstN = false) → exec (.sysRstNLow ns) s = .next s) ∧
    (∀ ns, 1000 ≤ ns → s.rst.sysRstN = true → s.rst.pwrGood = true →
      exec (.sysRstNLow ns) s = .next (resetBy 2 { s with rst := { s.rst with sysRstN := false } })) ∧
    (∀ ns, 1000 ≤ ns → s.rst.sysRstN = true → s.rst.pwrGood = false → exec (.sysRstNLow ns) s = .next { s with rst := { s.rst with sysRstN := false } }) ∧
    ((s.rst.armed = false ∨ s.rel 0 = false ∨ s.clk < s.rst.t0 + 30000000000) → exec .bootWatchdog s = .next s) ∧
    (s.rst.armed = true → s.rel 0 = true → s.rst.t0 + 30000000000 ≤ s.clk →
      exec .bootWatchdog s = .next (resetBy 4 { s with rst := { s.rst with causeStore := some (4, s.rst.stage) } })) ∧
    (∀ both, s.rst.pwrGood = false → exec (.sequencerSelfReset both) s = .next s) ∧
    (s.rst.pwrGood = true → exec (.sequencerSelfReset true) s = .next (resetBy 5 { s with rst := { s.rst with causeStore := some (5, s.rst.stage) } })) ∧
    (s.rst.pwrGood = true → ∃ t, exec (.sequencerSelfReset false) s = .next t ∧ t.rst = { s.rst with seqSelf := min (s.rst.seqSelf + 1) 0xFF } ∧ t.mem = s.mem) ∧
    (∀ t, t < 4 → s.rel 5 = true → exec (.dieFatal t) s = .next (resetBy 6 s)) ∧
    (∀ t, (4 ≤ t ∨ s.rel 5 = false) → exec (.dieFatal t) s = .next s) ∧
    (∀ c, s.rst.softPending = some c → c + 1000000 ≤ s.clk → exec .softwareResetDelay s = .next (resetBy 3 s)) ∧
    (∀ c, s.rst.softPending = some c → s.clk < c + 1000000 → exec .softwareResetDelay s = .next s) ∧
    (s.rst.softPending = none → exec .softwareResetDelay s = .next s)) ∧
  (∀ s : State,
    (∀ ok, (s.rst.pwrGood = true ∨ ok = false) → exec (.pwrGoodRise ok) s = .next s) ∧
    (s.rst.pwrGood = false → ∃ t, exec (.pwrGoodRise true) s = .next t ∧ t.rst.pwrGood = true ∧
      (s.rst.sysRstN = true → t.rst.released = 1 ∧ t.rst.t0 = s.clk) ∧ (s.rst.sysRstN = false → t.rst.released = s.rst.released) ∧ t.flash = s.flash) ∧
    (s.rst.sysRstN = true → exec .sysRstNHigh s = .next s) ∧
    (s.rst.sysRstN = false → ∃ t, exec .sysRstNHigh s = .next t ∧ t.rst.sysRstN = true ∧
      (s.rst.pwrGood = true → t.rst.released = 1 ∧ t.rst.t0 = s.clk) ∧ (s.rst.pwrGood = false → t.rst.released = s.rst.released))) ∧
  (∀ (q : Nat) (s : State), GlobalAt q 12 s → (q < 32 → q % 16 = 0) → s.rst.powering = false → s.rst.refuge ≠ 0 → s.dpt.running = none →
    exec (.exitRefuge q) s = .next (resetBy 3 { s with flash := { s.flash with attempts := 0 } })) ∧
  -- an update that a reset cuts short may leave the region it writes invalid
  ∀ s : State, (s.cutUpdate).flash.counters = s.flash.counters ∧ (s.cutUpdate).flash.retired = s.flash.retired ∧
    ((s.cutUpdate).flash.dep0 = s.flash.dep0 ∨ (s.cutUpdate).flash.dep0 = { s.flash.dep0 with ok := false })

/-- R464, R465, R473, R474: the operations of RST_CTRL on their partitions' tiers, software's requests and the power-down: what each starts, who may ask, and how a tier's reset and the power-down end. -/
def Claims.ResetOperations : Prop :=
  (∀ (q t : Nat) (s : State), GlobalAt q 12 s →
    let done := fun (r : Nat) => Host.Outcome.next (φ := Fault) (ρ := Refusal) { s with rst := { s.rst with result := r } }
    let pf := q < 32 → q % 16 = 0
    let plain := s.rst.powering = false ∧ s.rst.refuge = 0
    let empty := ∀ e ∈ s.gangs, e.2.live = true → coreOf e.1 / 144 ≠ t % 4
    let held := if bit s.rst.tiersHeld (t % 4) then s.rst.tiersHeld else s.rst.tiersHeld + 2 ^ (t % 4)
    (¬ pf → ∀ c ∈ [Instr.fullReset q, .powerDown q, .tierReset q t, .tierForce q t, .exitRefuge q], exec c s = done 3) ∧
    (pf → s.rst.powering = true → ∀ c ∈ [Instr.fullReset q, .powerDown q, .tierReset q t, .tierForce q t, .exitRefuge q], exec c s = done 2) ∧
    (pf → s.rst.powering = false → s.rst.refuge ≠ 0 → ∀ c ∈ [Instr.powerDown q, .tierReset q t, .tierForce q t], exec c s = done 2) ∧
    (pf → s.rst.powering = false → s.rst.refuge = 0 → exec (.exitRefuge q) s = done 2) ∧
    (pf → s.rst.powering = false → exec (.fullReset q) s =
      .next { s with rst := { s.rst with softPending := some (s.rst.softPending.getD s.clk), result := 0 } }) ∧
    (pf → plain → exec (.powerDown q) s = .next { s with rst := { s.rst with powering := true, result := 0 } }) ∧
    (pf → plain → ¬ empty → exec (.tierReset q t) s = done 1) ∧
    (pf → plain → empty → ∃ u, exec (.tierReset q t) s = .next u ∧ u.rst = { s.rst with tiersHeld := held, result := 0 } ∧ u.gangs = s.gangs ∧
      u.mem = { s.mem with tlbs := Tab.clear (fun i => decide (i < 576) && i / 144 == t % 4) s.mem.tlbs } ∧
      ∀ c, (c / 144 = t % 4 → (u.core c).l1 = [] ∧ (u.core c).icache = [] ∧ (u.core c).units = [] ∧ (u.core c).bars = []) ∧ (c / 144 ≠ t % 4 → u.core c = s.core c)) ∧
    (pf → plain → exec (.tierForce q t) s = .next ((s.tierGuilty (t % 4)).tierReset (t % 4)))) ∧
  (∀ (t : Nat) (s : State),
    ((4 ≤ t ∨ bit s.rst.tiersHeld t = false) → exec (.tierResetEnd t) s = .next s) ∧
    (t < 4 → bit s.rst.tiersHeld t = true →
      exec (.tierResetEnd t) s = .next { s with rst := { s.rst with tiersHeld := s.rst.tiersHeld - 2 ^ t, tierAt := s.rst.tierAt.set t s.clk } })) ∧
  ∀ (m : Sample) (undrained : Nat) (s : State),
    ((s.rst.powering = false ∨ s.rst.tripped = true) → exec (.powerDownEnd m undrained) s = .next s) ∧
    (s.rst.powering = true → s.rst.tripped = false → ∃ t, exec (.powerDownEnd m undrained) s = .next t ∧ t.rst.safeOff = true ∧ t.rst.powering = false ∧
      t.rst.released = 3 ∧ t.gangs = [] ∧ t.parts = [] ∧ t.mem = State.reset.mem ∧ t.subs = [] ∧ t.flash.counters = s.flash.counters ∧ t.pending = s.pending)

end Sys2Proof

/-- A step with a command at the front of the queue is that command's effect on the state with the queue's rest. -/
def Obligations.StepRunsFront : Prop :=
  ∀ (s : State) (c : Instr) (rest : List Instr), s.pending = c :: rest → step s = exec c { s with pending := rest }

/-- R109, R518: each integer row puts the exact result, modulo the width or as R109 says at its edges, into its destination. -/
def Obligations.IntegerRowsComplete : Prop := ∀ r ∈ integerRows, r.completes

/-- R163, R519: each floating-point row puts the exact result, rounded once under RM, into its destination; an approximate row puts the
part's fixed function there (log entry 6: a free value within R519's bound). A reciprocal lies within 1 ulp of
the exact one, and a sine or cosine of an argument outside [−π, π] in [−1, 1]. -/
def Obligations.FloatRowsComplete : Prop :=
  (∀ r ∈ floatRows, r.completes) ∧
  (∀ a n m e, fval a = .fin n m e → m ≠ 0 → approxWithin 0 a (fapprox 0 a) = true) ∧
  ∀ op ∈ [4, 5], ∀ a n m e, fval a = .fin n m e → 0x40490FDB ≤ a % 2 ^ 31 → ∃ v, fixOf (fapprox op a) = some v ∧ v.natAbs ≤ 2 ^ 200

/-- Comparisons, predicate writes, shuffles, descriptor moves and conversions: the claims named, whole. -/
def Obligations.PredicateAndMoveRowsComplete : Prop :=
  Claims.PredicateRowsComplete ∧ Claims.MoveRowsComplete

/-- Branches, calls, exits, traps, and what follows an issue: the claims named, whole. -/
def Obligations.ControlAndTrapRows : Prop :=
  Claims.ControlRowsComplete ∧ Claims.TrapRowsTrap ∧ Claims.IssueBookkeeping

/-- Loads issue, read what their lanes address, and return: the claims named, whole. -/
def Obligations.LoadsReadAndReturn : Prop :=
  Claims.LoadRowsComplete ∧ Claims.LoadLaneReads ∧ Claims.LoadReturnDelivers

/-- Stores enter the store buffer and drain to the bytes they name, and to no others: the claims named, whole. -/
def Obligations.StoresBufferAndDrain : Prop :=
  Claims.StoreRowsComplete ∧ Claims.StoreDrainWrites ∧ Claims.HomeWriteFrame

/-- ATOM reads, combines by AOP and writes in one step: the claims named, whole. -/
def Obligations.AtomicsReadModifyWrite : Prop :=
  Claims.AtomCompletes ∧ Claims.AtomicOperations

/-- Semaphore waits, fences, barriers, time reads, and the memory timers: the claims named, whole. -/
def Obligations.WaitsFencesAndBarriers : Prop :=
  Claims.SemAcquireWaits ∧ Claims.FenceAndBarrierRowsComplete ∧ Claims.MemoryTimersAct

/-- Conveyor pushes and pops, and the conveyor messages between devices: the claims named, whole. -/
def Obligations.ConveyorsPushAndPop : Prop :=
  Claims.ConveyorRowsComplete ∧ Claims.ConveyorMessages

/-- The matrix rows, and the accumulation that a run comes to: the claims named, whole. -/
def Obligations.MatrixRunsAccumulate : Prop :=
  Claims.MatrixRowsComplete ∧ Claims.MmaRunQueues ∧ Claims.MmaRunCompleteAccumulates

/-- R60, R61, R296: GANG_START puts the launch's next gang into a free slot of its district with room for its registers: threads 32 i to
32 i + 31 at the entry point, uniform registers and matrix descriptors from the argument block, the first thread's number in U_THREAD, lanes beyond the
thread count exited, every other register zero. -/
def Obligations.GangStartStarts : Prop :=
  ∀ (p k g : Nat) (s : State),
    let c := s.cmd p k
    c.wait = .gangs → c.startedGangs < c.gangs → s.frontOn = true → s.issueOn g = true → s.levelBusy p c.ring = false →
    (s.launchCores p k).contains (coreOf g) = true → (s.gang g).live = false → s.regRoom (subOf g) c.kern.vregs = true →
    s.coreTakes (coreOf g) p k = true →
    ∃ t, exec (.gangStart p k g) s = .next t ∧
      let x := t.gang g
      let i := c.startedGangs
      x.live = true ∧ x.k = c.kern ∧ x.regs = [] ∧ x.preds = [] ∧ x.marks = [] ∧ x.storeErr = false ∧ x.mode = .running ∧ x.trap = none ∧
      (∀ l < 32, (x.lane l).pc = u64 c.bytes 24 ∧ (x.lane l).stack = [] ∧ (x.lane l).wait = .none) ∧
      (∀ l < 32, bit x.exited l = decide (u32 c.bytes 20 ≤ 32 * i + l)) ∧
      (∀ j < u8 c.bytes 46, j ≠ u8 c.bytes 56 → Tab.get 0 x.uregs j = BitVec.ofNat 32 (u32 c.args (4 * j))) ∧
      (u8 c.bytes 56 ≠ 0xFF → Tab.get 0 x.uregs (u8 c.bytes 56) = BitVec.ofNat 32 (32 * i)) ∧
      (∀ j, u8 c.bytes 46 ≤ j → j ≠ u8 c.bytes 56 → Tab.get 0 x.uregs j = 0) ∧
      (∀ j < u8 c.bytes 47, Tab.get 0 x.mdesc j = BitVec.ofNat 64 (u64 c.args (256 + 8 * j))) ∧
      (∀ j, u8 c.bytes 47 ≤ j → Tab.get 0 x.mdesc j = 0) ∧
      (t.cmd p k).startedGangs = i + 1 ∧ (t.cmd p k).liveGangs = c.liveGangs + 1 ∧ (t.core (coreOf g)).kern = some (p, k) ∧
      t.mem = s.mem ∧ ∀ h, h ≠ g → t.gang h = s.gang h

/-- An idle step is one cycle (the model's choice, log entry 1), and so is the end of a slew: the claims named, whole. -/
def Obligations.TimePassesOnIdleSteps : Prop :=
  Claims.StepIdleTicks ∧ Claims.SlewEndIsItsCycles

/-- Barrier deadlocks trap the gangs of the rule, and recorded traps are reported: the claims named, whole. -/
def Obligations.KernelTrapsAndDeadlocks : Prop :=
  Claims.BarrierDeadlockTraps ∧ Claims.KernelTrapReports

/-- Halt, resume, steps, register access, FAULT and refusals of the debug unit: the claims named, whole. -/
def Obligations.DebugOperations : Prop :=
  Claims.HaltAndResume ∧ Claims.StepsIssueOne ∧ Claims.DebugRegisterAccess ∧ Claims.DebugFaultAndDenials

/-- Reads and writes of the register blocks: the claims named, whole. -/
def Obligations.RegisterReadsAndWrites : Prop :=
  Claims.RegisterReads ∧ Claims.RegisterWrites

/-- R27 to R31, R41, R43, R49: the first failing field of the header is the one reported; an image that passes carries the right magic, version, length,
target and hash, a serial above the one before (or the same with the same hash, where SURVEY_LIVE is 0), and a good signature where one is present. -/
def Obligations.SurveyHeaderChecks : Prop :=
  ∀ (s : State) (img : List Byte) (len op : Nat) (base : Option (Nat × List Byte)),
    let at_ := fun (code off : Nat) => s.validate img len op base = .error (code, off)
    let magic := slice img 0 4 = ascii "SURV"
    let version := u16 img 4 = 0x0100
    let flags := u16 img 6 < 4
    let length := u32 img 8 = len ∧ img.length = len ∧ len % 64 = 0 ∧ 384 ≤ len ∧ len ≤ 4194304
    let sections := 5 ≤ u16 img 0x0C ∧ u16 img 0x0C ≤ 15
    (¬ magic → at_ 3 0) ∧ (magic → ¬ version → at_ 4 4) ∧ (magic → version → ¬ flags → at_ 0x0D 6) ∧
    (magic → version → flags → ¬ length → at_ 5 8) ∧ (magic → version → flags → length → ¬ sections → at_ 0x0E 0x0C) ∧
    ∀ v, s.validate img len op base = .ok v →
      magic ∧ version ∧ flags ∧ length ∧ sections ∧ v.serial = u64 img 0x18 ∧ v.serial ≠ 0 ∧ v.hash = slice img 0x20 32 ∧
      u32 img 0x40 = 0x4A09B000 ∧ (u64 img 0x44 = 0 ∨ u64 img 0x44 = Config.devSerial.toNat) ∧
      (let stop := len - if bit (u16 img 6) 0 then 128 else 0
       Config.sha256 ((img.take stop).drop 0x100) = v.hash ∧
       (bit (u16 img 6) 0 = true → ∃ k ∈ s.flash.keys, k.1 = u32 img 0x10 ∧ slice img stop 4 = ascii "OSIG" ∧ u32 img (stop + 4) = k.1 ∧
         Config.ecdsaVerify k.2 (Config.sha256 (img.take stop)) (slice img (stop + 8) 64) = true)) ∧
      ((bit (u16 img 6) 1 = true ∨ s.sv.signReq = true ∨ imgSigns s.flash.stored = true) → bit (u16 img 6) 0 = true) ∧
      (∀ b ∈ base, b.1 ≤ v.serial ∧ (v.serial = b.1 → v.hash = b.2 ∧ s.live = false))

/-- Survey operations start, end, wait for their window and take effect: the claims named, whole. -/
def Obligations.SurveyOperations : Prop :=
  Claims.SurveyOperationsStart ∧ Claims.SurveyValidationEnds ∧ Claims.ReSurveyProceeds ∧ Claims.ApplyTakesEffect

/-- COMMIT of every group: refused, pending, and swapped in one step: the claims named, whole. -/
def Obligations.CommitsSwapShadows : Prop :=
  Claims.BaseSizeCommits ∧ Claims.OtherCommits ∧ Claims.CommitSwaps

/-- How a ring command starts, and what a broken one does: the claims named, whole. -/
def Obligations.RingAndPlacementCommandsStart : Prop :=
  Claims.RingCommandsStart ∧ Claims.CommandBegins ∧ Claims.PlacementCommandsStart

/-- Doorbells move TAIL by the rule; ring control and head registers: the claims named, whole. -/
def Obligations.DoorbellsAndRingControl : Prop :=
  Claims.DoorbellsMoveTail ∧ Claims.RingControlRows

/-- R62, R316: a guilty ring starts over past its started commands, in order: none is left, its gangs are killed, HEAD stands past them, the first one's
SEQUENCE is kept; a ring that is guilty already stays as it is. -/
def Obligations.GuiltyResetsRing : Prop :=
  ∀ (p n cause : Nat) (s : State),
    let r := s.ring p n
    let t := s.guilty p n cause
    (r.guilty = true → t = s) ∧
    (r.guilty = false →
      (t.ring p n).guilty = true ∧ (t.ring p n).started = [] ∧ (t.ring p n).frames = [] ∧ (t.ring p n).skip = 0 ∧ (t.ring p n).past = none ∧
      (t.ring p n).head = s.guiltyHead p n ∧ (t.ring p n).next = s.guiltyHead p n ∧
      (t.ring p n).guiltySeq = (match r.started with | k :: _ => u32 (s.cmd p k).bytes 8 | [] => 0) ∧
      (t.ring p n).grp.pend = none ∧ (r.grp.pend ≠ none → (t.ring p n).grp.status = 6) ∧
      (∀ e ∈ (s.part p).cmds, e.2.ring = n → t.cmd p e.1 = {} ∧
        ∀ g, (s.gang g).live = true → (s.gang g).k.part = p → (s.gang g).k.cmd = e.1 → (t.gang g).live = false) ∧
      ∀ g, (∀ e ∈ s.gangs, e.1 = g → e.2.k.part ≠ p) → t.gang g = s.gang g)

/-- Commands retire in order; COMPLETE writes its record: the claims named, whole. -/
def Obligations.CommandsRetireAndRecord : Prop :=
  Claims.CommandsRetire ∧ Claims.CompleteWritesRecord

/-- Launches and graphs: checks, versions, and the gangs or nodes that follow: the claims named, whole. -/
def Obligations.LaunchesAndGraphs : Prop :=
  Claims.LaunchStarts ∧ Claims.GraphCommands

/-- Fences, waits, tests, loops and calls of a ring: the claims named, whole. -/
def Obligations.FencesTestsAndLoops : Prop :=
  Claims.FencesAndWaits ∧ Claims.TestsLoopsAndCalls

/-- R307, R446: TALLY_OPEN opens a tally of the ring's, TALLY_CLOSE waits for its end; a tally already open, not open or another ring's is TALLY_STATE; the 65,537th
LIMIT. R253: XLT_INVAL advances the epoch, drops what the range's walks have cached, and waits for the epoch. R308: LAMP_CHECK writes its capture. R292: a reserved opcode is BAD_FIELD. -/
def Obligations.TallyInvalAndLampCommands : Prop :=
  (∀ (p n : Nat) (c : List Byte) (s : State) (b : List Byte) (k : Nat) (u : State), Begins 0x0D 0 0 [] p n c s b k u →
    let run := exec (.tallyOpen p n c) s
    let t := u32 b 4
    let open_ := (Tab.get {} (u.part p).en.tallies t).opened
    (t = 0 → run = .next (u.fail p k 0x01)) ∧ (t ≠ 0 → open_ = true → run = .next (u.fail p k 0x08)) ∧
    (t ≠ 0 → open_ = false → 65536 ≤ u.openTallies → run = .next (u.fail p k 0x07)) ∧
    (t ≠ 0 → open_ = false → u.openTallies < 65536 → ∃ v, run = .next v ∧ Ended v p k 0 ∧
      let x := Tab.get {} (v.part p).en.tallies t
      x.opened = true ∧ x.ring = n ∧ x.start = s.tim.now ∧ x.pj = [0, 0, 0, 0, 0, 0])) ∧
  (∀ (p n : Nat) (c : List Byte) (s : State) (b : List Byte) (k : Nat) (u : State), Begins 0x0E 0 0 [] p n c s b k u →
    let run := exec (.tallyClose p n c) s
    let x := Tab.get {} (u.part p).en.tallies (u32 b 4)
    (u32 b 4 = 0 → run = .next (u.fail p k 0x01)) ∧
    (u32 b 4 ≠ 0 → (x.opened = false ∨ x.ring ≠ n) → run = .next (u.fail p k 0x08)) ∧
    (u32 b 4 ≠ 0 → x.opened = true → x.ring = n → run = .next (u.await p k .tally))) ∧
  (∀ (p n : Nat) (c : List Byte) (s : State) (b : List Byte) (k : Nat) (u : State), Begins 0x10 0 0 [(16, 2), (24, 16)] p n c s b k u →
    let run := exec (.xltInval p n c) s
    let whole := bit (u8 b 17) 0
    let badly := 1 < u8 b 17 ∨ u64 b 24 % 65536 ≠ 0 ∨ u64 b 32 % 65536 ≠ 0
    (badly → run = .next (u.fail p k 0x01)) ∧
    (¬ badly → whole = false → u64 b 32 = 0 → run = .next u) ∧
    (¬ badly → (whole = true ∨ u64 b 32 ≠ 0) → u.asOn p (u8 b 16) = false → run = .next (u.fail p k 0x02)) ∧
    (¬ badly → (whole = true ∨ u64 b 32 ≠ 0) → u.asOn p (u8 b 16) = true → u.canBump p = false → run = .next (u.await p k .again)) ∧
    (¬ badly → (whole = true ∨ u64 b 32 ≠ 0) → u.asOn p (u8 b 16) = true → u.canBump p = true →
      ∃ t, run = .next t ∧ (t.part p).epoch = ((u.part p).epoch + 1) % 65536 ∧ (t.cmd p k).wait = .epoch (u.bump p).1 ∧
        let lo := if whole then 0 else u64 b 24
        let hi := if whole then 2 ^ 56 else u64 b 24 + u64 b 32
        ∀ i, ∀ e ∈ Tab.get [] t.mem.tlbs i, e.part = p → e.slot = u8 b 16 → ¬ (lo < e.base + 2 ^ e.bits ∧ e.base < hi))) ∧
  (∀ (p n : Nat) (c : List Byte) (s : State) (b : List Byte) (k : Nat) (u : State), Begins 0x16 0 0 [(16, 9)] p n c s b k u →
    let run := exec (.lampCheck p n c) s
    let va := u64 b 16
    (va % 4096 ≠ 0 → run = .next (u.fail p k 0x01)) ∧
    (va % 4096 = 0 → u.asOn p (u8 b 24) = false → run = .next (u.fail p k 0x02)) ∧
    (va % 4096 = 0 → u.asOn p (u8 b 24) = true → u.vwritable (tlbCp p) p (u8 b 24) va 16384 = false → run = .next (u.fail p k 0x03 va)) ∧
    (∀ x a, va % 4096 = 0 → u.asOn p (u8 b 24) = true → u.vwritable (tlbCp p) p (u8 b 24) va 16384 = true →
      u.xlate (tlbCp p) p (u8 b 24) va = some x → x.loc = .dev a →
      run = .next ((((u.capture p 1).2.cpWrite p ((u.capture p 1).2.cmd p k).ring ((u.capture p 1).2.cmdTally p k) (u8 b 24) va
        (u.capture p 1).1)).semCheck))) ∧
  (∀ (p n : Nat) (c : List Byte) (s : State),
    let op := if u8 c 0 ≤ 0x16 ∧ ¬ (u8 c 0 = 0x11 ∧ (u8 c 16 = 0 ∨ 7 < u8 c 16)) then 0 else u8 c 0
    s.canStart p n (cmdBytes op c) = true → (s.slotCode p n (cmdBytes op c)).1 = 0 →
    exec (.reservedOpcode p n c) s = .next ((s.begin p n (cmdBytes op c)).2.fail p (s.begin p n (cmdBytes op c)).1 0x01))

/-- Copies: addresses, moves and commands: the claims named, whole. -/
def Obligations.CopiesMoveBytes : Prop :=
  Claims.CopyAddresses ∧ Claims.CopyMoves ∧ Claims.CopyCommands

/-- Copy faults resolve, and fault records are kept: the claims named, whole. -/
def Obligations.FaultsAreRecorded : Prop :=
  Claims.CopyFaultsResolve ∧ Claims.FaultRecordsKept

/-- Pit Log records, Lamp Check captures and the sideband's answers: the claims named, whole. -/
def Obligations.PitLogAndSideband : Prop :=
  Claims.PitLogRecords ∧ Claims.LampCaptures ∧ Claims.SidebandAnswers

/-- Tensors and regions: placed, mapped, sealed and released: the claims named, whole. -/
def Obligations.TensorsAndRegions : Prop :=
  Claims.TensorDeclared ∧ Claims.RegionCommands ∧ Claims.SealAndRelease

/-- Stages, conveyors, queries and pins: the claims named, whole. -/
def Obligations.StagesConveyorsAndPins : Prop :=
  Claims.StageDeclared ∧ Claims.ConveyorDeclared ∧ Claims.QueryAndPin

/-- Proposals are weighed and moves proceed: the claims named, whole. -/
def Obligations.PlacementMoves : Prop :=
  Claims.ProposalsWeighed ∧ Claims.MovesProceed

/-- Record Time follows PPS, TIM_SET and the fabric: the claims named, whole. -/
def Obligations.TimebaseFollowsSources : Prop :=
  Claims.TimebaseFollowsPps ∧ Claims.TimeOverFabric

/-- R331 to R335, R337, R447: a slot's event fires when it is the next of the current period and its time has come, and in no other case: a period starts at a multiple of its
length; GATE_OPEN counts toward waiting GATE_WAITs; GO arms the job's attempt with its PERIOD; SHOT_BEGIN and SHOT_END open and close the window; TALLY_CUT cuts; SNAPSHOT
samples; STEP_DEADLINE closes the attempt. -/
def Obligations.CadenceEvents : Prop :=
  (∀ (s : State) (x : CadSet), s.tim.cad.live = some x → x.ns ≠ 0 → s.tim.cad.pend = none →
    let c := s.tim.cad
    let due := if c.begun then c.start + x.ns ≤ s.tim.now else alignUp c.start x.ns ≤ s.tim.now
    (¬ due → exec .cadencePeriodStart s = .next s) ∧
    (due → ∃ t, exec .cadencePeriodStart s = .next t ∧ t.tim.cad =
      { c with start := if c.begun then c.start + x.ns else alignUp c.start x.ns, begun := true, next := 0, periods := (c.periods + 1) % two64 } ∧ t.mem = s.mem)) ∧
  (∀ (s : State) (k : Nat) (m : Sample),
    let u : State := s.updCad fun c => { c with next := k + 1 }
    (∀ e ∈ [(Instr.gateOpen k, 1), (.go k, 2), (.shotBegin k, 3), (.shotEnd k, 4), (.tallyCut k m, 5), (.snapshot k, 6), (.stepDeadline k, 7)],
      s.slotDue k e.2 = none → exec e.1 s = .next s) ∧
    (∀ v, s.slotDue k 1 = some v → ∃ t, exec (.gateOpen k) s = .next t ∧ t.tim = u.tim ∧
      ∀ p j, (t.cmd p j).wait = match (s.cmd p j).wait with
        | .gate n => if p = bits v 19 16 ∧ bit (v % 256) (s.cmd p j).ring = true then (if n ≤ 1 then .done else .gate (n - 1)) else .gate n
        | w => w) ∧
    (∀ v i, s.slotDue k 2 = some v → s.jobSlot (slotTarget v) = some i → (s.job i).state = .armed → (s.job i).rank ≠ 0 →
      ∃ t, exec (.go k) s = .next t ∧ t.tim = u.tim ∧ (t.job i).state = .running ∧ (t.job i).at_.period = s.period ∧
        (t.job i).at_.sums = [] ∧ (t.job i).at_.verdicts = [] ∧ t.mem = s.mem) ∧
    (∀ v x, s.slotDue k 3 = some v → s.tim.cad.live = some x → s.srv.state ≠ .waiting →
      ∃ t, exec (.shotBegin k) s = .next t ∧ t.tim.cad.window = some (x.winLen k) ∧ t.tim.cad.next = k + 1) ∧
    (∀ v, s.slotDue k 4 = some v → ∃ t, exec (.shotEnd k) s = .next t ∧ t.tim.cad.window = none ∧ t.tim.cad.next = k + 1 ∧ t.mem = s.mem) ∧
    (∀ v, s.slotDue k 5 = some v → s.ckwOn = true → exec (.tallyCut k m) s = .next (u.cut m 2)) ∧
    (∀ v, s.slotDue k 6 = some v → ∃ t, exec (.snapshot k) s = .next t ∧ t.tim.snap = s.tim.now ∧
      ∀ p n, (t.ring p n).snapRetired = (if s.dpt.crewUp then (s.ring p n).retired else (s.ring p n).snapRetired) ∧
        (t.ring p n).snapInstr = (if s.dpt.crewUp then (s.ring p n).instr else (s.ring p n).snapInstr)) ∧
    (∀ v, s.slotDue k 7 = some v → exec (.stepDeadline k) s = .next (u.jobDeadline (slotTarget v))))

/-- Jobs join and leave; steps arm: the claims named, whole. -/
def Obligations.ReductionJobsAndSteps : Prop :=
  Claims.JobsJoinAndLeave ∧ Claims.StepsArm

/-- R382, R383, R385, R386, R390, R391: a reduction flit of an attempt in progress acts as its type says, by the rank that sends it and the owner of its chunk; one that matches
no attempt is counted as stale, one at a device without an ID dropped and counted (R373); the tail decides once it has every verdict, or at its timeout with those it has; a rank without a decision ends with RED_NO_DECISION. -/
def Obligations.ReductionMessages : Prop :=
  (∀ (m : RedMsg) (s : State), ∀ c ∈ [Instr.redPart m, .redSum m, .redParam m, .redVerdict m, .redDecision m],
    ((s.rel 6 = false ∨ (s.devId ≠ none ∧ s.jobSlot m.job = none)) → exec c s = .next s) ∧
    (s.rel 6 = true → s.devId = none → exec c s = .next (s.updFab fun x => { x with badType := min (x.badType + 1) 0xFFFF })) ∧
    (∀ i, s.rel 6 = true → s.devId ≠ none → s.jobSlot m.job = some i → ¬ RedOf m i s →
      exec c s = .next (s.updPart (s.job i).part fun x => { x with stale := min (x.stale + 1) 0xFFFFFFFF }))) ∧
  (∀ (m : RedMsg) (i : Nat) (s : State), RedOf m i s →
    let j := s.job i
    let v := s.charge j.part (j.tally s) 9 1
    let data := nats (m.data.take (j.count m.chunk))
    let word := (m.data.headD 0).toNat
    (j.state = .running → j.rank = m.rank + 1 → m.chunk < j.chunks →
      exec (.redPart m) s = .next (v.addPart i m.chunk (some data) m.poison)) ∧
    ((j.state ≠ .running ∨ j.rank ≠ m.rank + 1 ∨ j.chunks ≤ m.chunk) → exec (.redPart m) s = .next v) ∧
    (j.state = .running → m.rank = j.tail → m.chunk < j.chunks → j.owner m.chunk = j.rank →
      exec (.redSum m) s = .next (v.ownSum i m.chunk data m.poison)) ∧
    (j.state = .running → j.mode = 1 → m.chunk < j.chunks → j.owner m.chunk = m.rank → m.rank ≠ j.rank →
      ∃ t, exec (.redParam m) s = .next t ∧ Tab.get false (t.job i).at_.params m.chunk = true ∧ (t.job i).state = .running) ∧
    (j.rank = j.tail → m.rank < j.tail → 1 ≤ word % 256 → word % 256 ≤ 3 → (j.state = .running ∨ ∃ r < j.ranks, r ≠ m.rank ∧ Tab.get 0 j.at_.verdicts r = 0) →
      ∃ t, exec (.redVerdict m) s = .next t ∧ Tab.get 0 (t.job i).at_.verdicts m.rank = word % 256 ∧ (t.job i).state = j.state) ∧
    (j.rank ≠ j.tail → m.rank = j.tail → 1 ≤ word % 256 → word % 256 ≤ 3 → AttemptEnds (.redDecision m) i (word % 256) (word / 65536) s)) ∧
  (∀ (job i : Nat) (s : State), s.jobSlot job = some i →
    let j := s.job i
    (j.state = .deciding → j.rank = j.tail → AttemptEnds (.decisionTimeout job) i j.decision.1 j.decision.2 s) ∧
    (j.state = .deciding → j.rank ≠ j.tail → AttemptEnds (.noDecisionTimeout job) i 5 0xFFFF s) ∧
    (j.state ≠ .deciding → exec (.decisionTimeout job) s = .next s ∧ exec (.noDecisionTimeout job) s = .next s)) ∧
  (∀ j : Job, j.ranks ≤ 16384 →
    let v := fun r => Tab.get 0 j.at_.verdicts r
    ((∃ r < j.ranks, v r = 3) → j.decision.1 = 3) ∧
    ((∀ r < j.ranks, v r ≠ 3) → (∃ r < j.ranks, v r = 0 ∨ v r = 2) → j.decision.1 = 2) ∧
    ((∀ r < j.ranks, v r ≠ 3 ∧ v r ≠ 0 ∧ v r ≠ 2) → j.decision = (1, 0xFFFF)))

/-- R383, R385 to R388: a rank adds its contribution to the partial sum in rank order and sends it on; the tail's sum goes to the chunk's owner, which in MODE 0 stores it times
GSCALE, and in MODE 1 updates its shard once for each STEP by the rule. -/
def Obligations.SumsInRankOrder : Prop :=
  (∀ (i c : Nat) (part : Option (List Nat)) (poison : Bool) (s t : State) (x : List Nat) (q : Bool), s.contribution (s.job i) c = (some (x, q), t) →
    let j := s.job i
    let sum := match part with | some l => List.zipWith (fun a b => fp32.ofVal 0 0 (addVal (fval a) (fval b))) l x | none => x
    let u := t.charge j.part (j.tally t) 7 1
    (j.rank = j.tail → j.owner c = j.rank → s.addPart i c part poison = u.ownSum i c sum (poison || q)) ∧
    (j.rank = j.tail → j.owner c ≠ j.rank → s.addPart i c part poison = u.redSend i 0x31 (j.owner c) c (poison || q) (words sum)) ∧
    (j.rank ≠ j.tail → s.addPart i c part poison = u.redSend i 0x30 (j.rank + 1) c (poison || q) (words sum))) ∧
  (∀ (i c : Nat) (sum : List Nat) (poison : Bool) (s : State), (s.job i).mode = 0 →
    let j := s.job i
    let t := s.ownSum i c sum poison
    Tab.get none (t.job i).at_.sums c = some poison ∧ t.mem = (s.redWrite j (j.args.dest + 240 * (c - j.rank * j.perRank))
      (wordBytes (sum.map fun v => fp32.ofVal 0 0 (mulVal (fval v) (fval j.args.gscale.toNat)))) poison).mem) ∧
  (∀ (i c : Nat) (sum : List Nat) (s t u : State) (tag d : List Byte) (q r : Bool),
    let j := s.job i
    let n := c - j.rank * j.perRank
    s.redRead j (j.tagAt n) 4 = (some (tag, q), t) → t.redRead j (j.arrayAt 0 n) (4 * j.count c) = (some (d, r), u) → leVal tag = j.step →
    s.applyChunk i c sum = (some ((List.range (j.count c)).map fun k => leAt d (4 * k) 4), u)) ∧
  (∀ (j : Job) (w m v sum : Nat),
    let g := fmul 0 sum j.args.gscale.toNat
    let lr := j.args.lr.toNat
    let one := 0x3F800000
    let w0 := if j.wd.toNat % 2 ^ 31 = 0 then w else fsub 0 w (fmul 0 (fmul 0 lr j.wd.toNat) w)
    let x := j.update w m v sum
    (j.rule = 0 → x = (fsub 0 w0 (fmul 0 lr g), m, v)) ∧
    (j.rule = 1 → x.2.1 = fadd 0 (fmul 0 j.b1.toNat m) g ∧ x.1 = fsub 0 w0 (fmul 0 lr x.2.1) ∧ x.2.2 = v) ∧
    (j.rule = 2 → x.2.1 = fadd 0 (fmul 0 j.b1.toNat m) (fmul 0 (fsub 0 one j.b1.toNat) g) ∧
      x.2.2 = fadd 0 (fmul 0 j.b2.toNat v) (fmul 0 (fsub 0 one j.b2.toNat) (fmul 0 g g)) ∧
      x.1 = fsub 0 w0 (fmul 0 lr (fdiv 0 x.2.1 (fadd 0 (fsqrt 0 (fmul 0 x.2.2 j.args.bc2.toNat)) j.eps.toNat)))))

/-- Channel events, patrol scrubs and coherent agents: the claims named, whole. -/
def Obligations.ChannelsAndAgents : Prop :=
  Claims.ChannelEvents ∧ Claims.PatrolScrubReadsNext ∧ Claims.AgentsAtTheHome

/-- R255 to R257, R368: an inbound adit request that passes the checks reads, writes or updates the owner's memory and is answered OK; one that fails a check changes no memory and
is answered REFUSED with a record at the owner. A response completes what waits under its tag. -/
def Obligations.AditRequestsServed : Prop :=
  (∀ (m : AditReq) (r : AditRsp) (s : State), s.devId = none →
    ∀ c ∈ [Instr.aditRd m, .aditWr m, .aditAtom m, .aditRsp r], exec c s = .next (s.updFab fun x => { x with badType := min (x.badType + 1) 0xFFFF })) ∧
  (∀ (m : AditReq) (s : State), s.devId ≠ none →
    (∀ e ∈ [(Instr.aditRd m, AditOp.rd), (.aditWr m, .wr), (.aditAtom m, .atom)], ∀ code p a, s.aditCheck e.2 m = (code, p, a) → code ≠ 0 →
      exec e.1 s = .next ((if p < 16 then s.report p 0x0008 11 m.window m.offset (leBytes 2 m.src ++ leBytes 1 code) false else s).aditRespond p m 1 0 [])) ∧
    (s.mem.flips = [] → ∀ p a, s.aditCheck .rd m = (0, p, a) → ∃ v : State,
      exec (.aditRd m) s = .next (v.aditRespond p m 0 (if s.poisonAt a then elemMask m.len else 0) (s.devRead a m.len)) ∧
      v.mem.dev = s.mem.dev ∧ v.gangs = s.gangs) ∧
    (s.mem.flips = [] → ∀ p a, s.aditCheck .wr m = (0, p, a) → ∃ v : State,
      exec (.aditWr m) s = .next (v.aditRespond p m 0 0 []) ∧ v.mem.dev = (s.devWrite a (padTo m.len m.data)).mem.dev) ∧
    (s.mem.flips = [] → ∀ p a, s.aditCheck .atom m = (0, p, a) →
      let old := leVal (s.devRead a m.len)
      (s.poisonAt a = true → ∃ v : State,
        exec (.aditAtom m) s = .next (v.aditRespond p m 0 (elemMask m.len) (leBytes m.len old)) ∧ v.mem.dev = s.mem.dev) ∧
      (s.poisonAt a = false → ∃ v : State,
        exec (.aditAtom m) s = .next (v.aditRespond p m 0 0 (leBytes m.len old)) ∧ v.mem.dev =
          (s.devWrite a (leBytes m.len (aop m.aop (8 * m.len) old (leAt m.data 0 m.len) (leAt m.data m.len m.len)))).mem.dev))) ∧
  (∀ (o : AditOp) (m : AditReq) (s : State) (p a : Nat), s.aditCheck o m = (0, p, a) →
    ∃ w, s.sv.inWin m.window = some w ∧ p = w.owner ∧ bit (Tab.get 0 (s.part p).inBind m.window) 63 = true ∧
      w.first ≤ m.src ∧ m.src ≤ w.last ∧ 0 < m.len ∧ m.offset % 128 + m.len ≤ 128 ∧ m.offset + m.len ≤ w.size * 65536 ∧
      bit w.perm (match o with | .rd => 0 | .wr => 1 | .atom => 2) = true ∧ (o = .atom → m.aop ≤ 10 ∧ (m.len = 4 ∨ m.len = 8) ∧ m.offset % m.len = 0)) ∧
  ∀ (m : AditRsp) (s : State), s.devId ≠ none →
    let u := s.dropTag m.tag
    (Tab.get none s.fab.tags m.tag = none → exec (.aditRsp m) s = .next s) ∧
    (∀ g id lane, Tab.get none s.fab.tags m.tag = some (.load g id lane) →
      exec (.aditRsp m) s = .next (u.laneAnswer g id lane (leVal m.data) (decide (m.status ≠ 0 ∨ m.pmask ≠ 0)))) ∧
    (∀ b e, Tab.get none s.fab.tags m.tag = some (.store b) → ((u.sub b).find? fun x => x.tag == some m.tag) = some e →
      exec (.aditRsp m) s = .next (if m.status = 0 then u.storeDone b e else u.storeLost b e))

/-- R343 to R345, R349, R351, R352, R373: a port's course from DETECT to UP, and every way out of it. -/
def Obligations.FabricPortsTrain : Prop :=
  (∀ (port : Nat) (s : State),
    let x := s.fabPort port
    (∀ lanes, x.state = .detect → lanesWidth lanes ≠ 0 →
      exec (.laneSignalDetect port lanes) s = .next (s.updFabPort port fun x => { x with state := .train, cause := 0, frames := true })) ∧
    (∀ lanes, (x.state ≠ .detect ∨ lanesWidth lanes = 0) → exec (.laneSignalDetect port lanes) s = .next s) ∧
    (∀ lanes, x.state = .train → lanesWidth lanes ≠ 0 → ∃ t, exec (.trainComplete port lanes) s = .next t ∧ Sent port 1 s t ∧
      { t.fabPort port with out := x.out } = { x with state := .discover, width := lanesWidth lanes, lastTx := s.clk }) ∧
    (∀ lanes, (x.state ≠ .train ∨ lanesWidth lanes = 0) → exec (.trainComplete port lanes) s = .next s) ∧
    (x.state = .train → FallsTo (.trainTimeout port) port 2 none s) ∧ (x.state ≠ .train → exec (.trainTimeout port) s = .next s) ∧
    (x.state = .discover → FallsTo (.discoverTimeout port) port 1 none s) ∧ (x.state ≠ .discover → exec (.discoverTimeout port) s = .next s) ∧
    (x.state = .hold → exec (.holdTimeout port) s = .next (s.updFabPort port fun x => { x with state := .detect })) ∧
    (x.state ≠ .hold → exec (.holdTimeout port) s = .next s) ∧
    (∀ lost, x.state ∈ [.up, .discover, .train] → FallsTo (.linkLoss port lost) port 6 (some lost) s) ∧
    (∀ lost, x.state ∉ [.up, .discover, .train] → exec (.linkLoss port lost) s = .next s) ∧
    (x.state ∈ [.up, .discover] → exec (.frameReplay port) s = .next (s.updFabPort port fun x => { x with replays := min (x.replays + 1) 0xFFFF })) ∧
    (x.state ∉ [.up, .discover] → exec (.frameReplay port) s = .next s)) ∧
  (∀ (q port : Nat) (s : State), GlobalAt q 7 s →
    (s.portUp port = true → FallsTo (.retrain q port) port 8 none s) ∧ (s.portUp port = false → exec (.retrain q port) s = .next s) ∧
    (∀ on, 32 ≤ port → exec (.portHold q port on) s = .next s) ∧
    (∀ on, port < 32 → (∀ i < 32, (s.fabPort i).state ≠ .up) →
      let v := s.updFabPort port fun x => { x with hold := on }
      ∃ t, exec (.portHold q port on) s = .next t ∧ (t.fabPort port).hold = on ∧
        ∀ i < 32, (t.fabPort i).state =
          if v.portEnabled i then (if (s.fabPort i).state = .disabled then .detect else (s.fabPort i).state) else .disabled)) ∧
  (∀ (port : Nat) (m : HelloMsg) (s : State),
    let x := s.fabPort port
    let id := if m.valid then some (m.id % 16384) else none
    let hit := m.echo = x.lastTx ∧ m.echo ≠ 0
    let rtt := if hit then max x.rtt (modSub two64 s.clk m.echo) else x.rtt
    let n := if hit then x.hellos + 1 else x.hellos
    let met : FabPort := { x with echo := m.tTx, hellos := n, rtt := rtt, nbrSerial := m.serial, nbrId := id, nbrPort := m.port % 32 }
    let fits := m.version = 1 ∧ m.width = x.width
    let mine := m.serial = Config.devSerial.toNat
    (x.state = .discover → ¬ fits → FallsTo (.hello port m) port 3 none s) ∧
    (x.state = .discover → fits → mine → FallsTo (.hello port m) port 4 none s) ∧
    (x.state = .discover → fits → ¬ mine → n < 16 → ∃ t, exec (.hello port m) s = .next t ∧ Sent port 1 s t ∧
      { t.fabPort port with out := x.out } = { met with lastTx := s.clk }) ∧
    (x.state = .discover → fits → ¬ mine → 16 ≤ n → 5120 < rtt → ∃ t, exec (.hello port m) s = .next t ∧
      (t.fabPort port).state = .hold ∧ (t.fabPort port).cause = 5) ∧
    (x.state = .discover → fits → ¬ mine → 16 ≤ n → rtt ≤ 5120 →
      exec (.hello port m) s = .next (((s.updFabPort port fun _ => { met with
        state := .up, cause := 0, rate := portRate x.width rtt }).hello port).ownChange)) ∧
    (x.state = .up → (m.serial ≠ x.nbrSerial ∨ m.port % 32 ≠ x.nbrPort ∨ (x.nbrId ≠ none ∧ id ≠ x.nbrId)) → FallsTo (.hello port m) port 6 none s) ∧
    (x.state = .up → m.serial = x.nbrSerial → m.port % 32 = x.nbrPort → id = x.nbrId →
      exec (.hello port m) s = .next (s.updFabPort port fun y => { y with echo := m.tTx, nbrId := id })) ∧
    (x.state = .up → m.serial = x.nbrSerial → m.port % 32 = x.nbrPort → x.nbrId = none → id ≠ none →
      exec (.hello port m) s = .next (s.updFabPort port fun y => { y with echo := m.tTx, nbrId := id }).ownChange) ∧
    (x.state ∉ [.discover, .up] → exec (.hello port m) s = .next s)) ∧
  (∀ s : State, ∃ t, exec .helloTimer s = .next t ∧ ∀ i < 32,
    (s.portUp i = true → Sent i 1 s t ∧ (t.fabPort i).lastTx = s.clk) ∧ (s.portUp i = false → t.fabPort i = s.fabPort i)) ∧
  ∀ (w rtt : Nat), portRate w rtt = min (if w = 3 then 200 else 100) (if rtt = 0 then 200 else 131072 / rtt)

/-- R350, R353, R355 to R357, R366: flooded messages, device IDs and reachability: a newer LSA is kept and flooded on; the lowest serial that offers leads, and gives the lowest ID that
nobody holds; a target without an ID takes the one assigned; a device declared unreachable stays so for its hold. -/
def Obligations.FabricTopology : Prop :=
  (∀ (type : Nat) (body : List Byte) (not : Option Nat) (s : State), ∀ i < 32,
    (s.portUp i = true → not ≠ some i → Joins { type := type, hops := 31, dest := 0, src := s.devId.getD 0, flow := 0xC000, body := padTo 256 body }
      (s.fabPort i) ((s.flood type body not).fabPort i)) ∧
    ((s.portUp i = false ∨ not = some i) → (s.flood type body not).fabPort i = s.fabPort i)) ∧
  (∀ (port : Nat) (m : LsaMsg) (s : State),
    let me := Config.devSerial.toNat
    let old := s.fab.lsdb.find? fun r => r.serial == m.serial
    let stale := ∃ r, old = some r ∧ m.sq ≤ r.sq
    let r : LsaRec := { serial := m.serial, id := m.id.map (· % 16384), lead := m.leadOffer, sq := m.sq, ports := m.ports.take 32 }
    ((s.portUp port = false ∨ m.serial = me ∨ stale) → exec (.lsa port m) s = .next s) ∧
    (s.portUp port = true → m.serial ≠ me → ¬ stale →
      let v := (s.updFab fun x => { x with lsdb := (x.lsdb.filter fun e => e.serial != m.serial) ++ [r] }).flood 3 (lsaBody r) (some port)
      let w := if old.any fun o => o.id == r.id && o.lead == r.lead && o.ports == r.ports then v else v.reroute
      (¬ (w.devId ≠ none ∧ r.id = w.devId ∧ m.serial < me) → exec (.lsa port m) s = .next w) ∧
      (w.devId ≠ none → r.id = w.devId → m.serial < me → exec (.lsa port m) s = .next (w.idConflict m.serial)))) ∧
  (∀ s : State,
    ((s.upPorts = [] ∨ s.dpt.crewUp = false) → exec .lsaTimer s = .next s) ∧
    (s.upPorts ≠ [] → s.dpt.crewUp = true →
      let u := s.updFab fun x => { x with lsaSeq := (x.lsaSeq + 1) % two32 }
      exec .lsaTimer s = .next (u.flood 3 (lsaBody u.ownLsa) none)) ∧
    (∀ serial, (∃ r ∈ s.fab.lsdb, r.serial = serial) →
      exec (.lsaExpiry serial) s = .next (s.updFab fun x => { x with lsdb := x.lsdb.filter fun r => r.serial != serial }).reroute) ∧
    (∀ serial, (∀ r ∈ s.fab.lsdb, r.serial ≠ serial) → exec (.lsaExpiry serial) s = .next s) ∧
    (s.rel 6 = true →
      let offers := ((s.ownLsa :: s.fab.lsdb).filter (·.lead)).map (·.serial)
      ∃ t, exec .leaderElection s = .next t ∧ (offers = [] → t.fab.leader = 0 ∧ t.fab.isLeader = false) ∧
        (offers ≠ [] → t.fab.leader ∈ offers ∧ (∀ x ∈ offers, t.fab.leader ≤ x) ∧
          (t.fab.isLeader = true ↔ t.fab.leader = Config.devSerial.toNat)) ∧
        (t.fab.isLeader = true → s.fab.isLeader = false → t.fab.table = s.heldIds) ∧ (t.fab.isLeader = false → t.fab.asks = []))) ∧
  (∀ (port : Nat) (m : AssignReqMsg) (s : State),
    ((s.portUp port = false ∨ s.isNew 4 m.serial m.sq = false) → exec (.assignReq port m) s = .next s) ∧
    (s.portUp port = true → s.isNew 4 m.serial m.sq = true →
      ∃ t, exec (.assignReq port m) s = .next t ∧ t.isNew 4 m.serial m.sq = false ∧ (s.fab.isLeader = true → m.serial ∈ t.fab.asks) ∧
        (s.fab.isLeader = false → t.fab.asks = s.fab.asks) ∧ ∀ i < 32, s.portUp i = true → i ≠ port → Sent i 4 s t)) ∧
  (∀ s : State,
    (s.idWaiting = false → exec .assignReqTimer s = .next s) ∧
    (s.idWaiting = true → ∃ t, exec .assignReqTimer s = .next t ∧ t.fab.reqSeq = (s.fab.reqSeq + 1) % two32 ∧ t.idWaiting = true ∧
      ∀ i < 32, s.portUp i = true → Sent i 4 s t) ∧
    ((s.fab.isLeader = false ∨ s.dpt.crewUp = false) → exec .leaderAssignTimer s = .next s) ∧
    (s.fab.isLeader = true → s.dpt.crewUp = true →
      exec .leaderAssignTimer s = .next ((sortNat s.fab.asks).foldl (fun s a => s.assignOne a) s)) ∧
    (∀ serial d, s.assignId serial = some d → (∀ e ∈ s.fab.table, e.1 ≠ serial) →
      d < 16384 ∧ (∀ e ∈ s.fab.table ++ s.heldIds, e.2 ≠ d) ∧ ∀ c < d, ∃ e ∈ s.fab.table ++ s.heldIds, e.2 = c)) ∧
  (∀ (port : Nat) (m : AssignMsg) (s : State),
    ((s.portUp port = false ∨ s.isNew 5 m.leader m.sq = false) → exec (.assign port m) s = .next s) ∧
    (s.portUp port = true → s.isNew 5 m.leader m.sq = true →
      let v := (s.noteSeen 5 m.leader m.sq).flood 5 (leBytes 8 m.leader ++ leBytes 8 m.target ++ leBytes 2 m.id ++ leBytes 4 m.sq) (some port)
      ((m.target ≠ Config.devSerial.toNat ∨ s.idWaiting = false) → exec (.assign port m) s = .next v) ∧
      (m.target = Config.devSerial.toNat → s.idWaiting = true → exec (.assign port m) s = .next (v.takeId 2 (m.id % 16384)) ∧
        (v.takeId 2 (m.id % 16384)).devId = some (m.id % 16384)))) ∧
  ∀ (d : Nat) (s : State),
    (s.rel 6 = true → ∃ t, exec (.reach d) s = .next t ∧ t.reachable d = false ∧ Tab.get false t.fab.reachHold d = true) ∧
    (Tab.get false s.fab.reachHold d = false → exec (.reachHoldExpiry d) s = .next s) ∧
    (Tab.get false s.fab.reachHold d = true → ∃ t, exec (.reachHoldExpiry d) s = .next t ∧ Tab.get false t.fab.reachHold d = false)

/-- R346 to R350, R358 to R365: a flit in transit goes on by the live port that its flow's hash picks, with HOPS one less, as its output has credits; without a route it is dropped and
counted, and a request's source is told, once in 10 µs; at HOPS 0 it is dropped; a reserved type is counted. -/
def Obligations.FlitsForwarded : Prop :=
  ∀ (port : Nat) (f : Flit) (s : State), port < 32 →
    let run := exec (.flitForward port f) s
    let d := f.dest % 16384
    let src := f.src % 16384
    let live := s.livePorts d (2 ^ 32 - 1)
    let h := (src * 0x9E37 + d * 0x7F4B + f.flow * 0x3C6F) % 65536
    let comes := s.portUp port = true ∧ s.rxHeld port (flitClass f.type) < creditGrant (flitClass f.type)
    let transit := comes ∧ routedType f.type = true ∧ s.devId ≠ some d
    (¬ comes → run = .next s) ∧
    (comes → knownType f.type = false → run = .next (s.updFab fun x => { x with badType := min (x.badType + 1) 0xFFFF })) ∧
    (comes → knownType f.type = true → (routedType f.type = false ∨ s.devId = some d) → run = .next s) ∧
    (transit → f.hops = 0 → run = .next (s.updFab fun x => { x with ttl := min (x.ttl + 1) 0xFFFF })) ∧
    (transit → f.hops ≠ 0 → ∀ i, live[h * live.length / 65536]? = some i →
      ∃ t, run = .next t ∧ Joins { f with hops := f.hops - 1 } (s.fabPort i) (t.fabPort i) ∧
        (∀ j, j ≠ i → t.fabPort j = s.fabPort j) ∧ t.mem = s.mem) ∧
    (transit → f.hops ≠ 0 → live = [] →
      let u := s.updFab fun x => { x with noRoute := min (x.noRoute + 1) 0xFFFF }
      (isReq f.type = false → run = .next u) ∧
      (isReq f.type = true → (∃ e ∈ s.fab.reachSent, e.1 = src ∧ e.2.1 = d ∧ s.tim.now < e.2.2 + 10000) → run = .next u) ∧
      (isReq f.type = true → (∀ e ∈ s.fab.reachSent, e.1 = src → e.2.1 = d → e.2.2 + 10000 ≤ s.tim.now) →
        ∀ i, pickPort (s.devId.getD 0) src 0xC000 (s.livePorts src (2 ^ 32 - 1)) = some i →
        ∃ t g, run = .next t ∧ Joins g (s.fabPort i) (t.fabPort i) ∧ g.type = 6 ∧ g.dest = src ∧ u16 g.body 0 = d)) ∧
    (live ≠ [] → ∃ i ∈ live, live[h * live.length / 65536]? = some i ∧ s.portUp i = true)

/-- BAR2 requests and the completions of the device's own requests: the claims named, whole. -/
def Obligations.HostRequestsServed : Prop :=
  Claims.Bar2Requests ∧ Claims.HostCompletionsDeliver

/-- R395 to R398, R410, R460: a configuration request is answered with Request Retry Status until the port is ready, with Unsupported Request for an absent function, and otherwise with the field
it reads or after the change it asks for. -/
def Obligations.ConfigRequests : Prop :=
  ∀ (port fn : Nat) (s : State),
    let x := s.port port
    let q := 16 * port + fn
    let run := fun (r : CfgReq) => exec (.configRequest port fn r) s
    let heard := port < 2 ∧ fn < 16 ∧ s.rel 2 = true ∧ x.present = true ∧ x.perst = false
    let answer := fun (t : State) (d : List Byte) (ok : Bool) => t.send port (.completion d false ok)
    let to_ := fun (r : CfgReq) (f : FnCfg → FnCfg) => run r = .next (answer (s.updFn q fun y => { y with cfg := f y.cfg }) [] true)
    (¬ heard → ∀ r, run r = .next s) ∧
    (heard → x.dom ≠ .ready → ∀ r, run r = .next (s.updPort port fun x => { x with out := x.out ++ [.retry] })) ∧
    (heard → x.dom = .ready → s.fnOn q = false → ∀ r, run r = .next (answer s [] false)) ∧
    (heard → x.dom = .ready → s.fnOn q = true →
      run .readRevision = .next (answer s (leBytes 1 0xB0) true) ∧ run .readClass = .next (answer s (leBytes 3 0x120000) true) ∧
      run .readSerial = .next (answer s (leBytes 8 Config.devSerial.toNat) true) ∧
      run .readSubsystem = .next (answer s (leBytes 4 Config.subsystemIds) true) ∧
      run .readBar2Log = .next (answer s (leBytes 1 (if fn = 0 then (s.fn q).cfg.bar2 else 36)) true) ∧
      run .readVf = .next (answer s (leBytes 1 x.vfs ++ leBytes 1 (b2n (s.fn (16 * port)).cfg.vfEn)) true) ∧
      (fn = 0 → run .readVendor = .next (answer s (leBytes 2 0x1F6E) true) ∧ run .readDevice = .next (answer s (leBytes 2 0x4A09) true)) ∧
      (∀ on, to_ (.memEnable on) fun c => { c with memEn := on, bar2 := if on = true ∧ c.memEn = false then c.bar2Next else c.bar2 }) ∧
      (∀ on, fn = 0 → to_ (.vfEnable on) fun c => { c with vfEn := on }) ∧
      (∀ on, to_ (.power on) fun c => { c with d3 := on }) ∧
      (∀ b ∈ [128, 256, 512], to_ (.maxPayload b) fun c => { c with mps := b }) ∧
      (∀ b ∈ [128, 256, 512, 1024, 2048, 4096], to_ (.maxRead b) fun c => { c with mrrs := b }) ∧
      (∀ n, fn = 0 → 36 ≤ n → n ≤ x.bar2 → to_ (.resizeBar2 n) fun c => { c with bar2Next := n, bar2 := if c.memEn then c.bar2 else n }) ∧
      (∀ n, (n < 36 ∨ x.bar2 < n) → run (.resizeBar2 n) = .next (answer s [] true)) ∧
      (∀ on mask, (s.fn q).cfg.pba = 0 → to_ (.msix on mask) fun c => { c with msixEn := on, msixMask := mask }))

/-- R409 to R412, R460: a trigger on a ready port takes its domain down and stops its partitions, whose rings are left guilty and disabled, and on a port that is not ready changes nothing; a
release of PERST and the link's training bring it back, and vectors that waited go out; a function's reset strikes its own partitions and configuration. -/
def Obligations.PortAndFunctionResets : Prop :=
  (∀ (i : Nat) (s : State),
    let struck := i < 2 ∧ (s.port i).present = true ∧ (s.port i).dom = .ready
    (∀ e ∈ [(Instr.dlDown i, 2), (.hotReset i, 3), (.creditTimeout i, 4)],
      (¬ struck → exec e.1 s = .next s) ∧ (struck → exec e.1 s = .next (s.portDown i e.2).copiesGo)) ∧
    (2 ≤ i → exec (.perst i) s = .next s ∧ exec (.perstRelease i) s = .next s) ∧
    (i < 2 → exec (.perst i) s = .next ((if (s.port i).present = true ∧ (s.port i).dom = .ready then (s.portDown i 1).copiesGo else s).updPort i fun x =>
      { x with perst := true, dom := .inReset })) ∧
    (i < 2 → (s.port i).perst = true → exec (.perstRelease i) s = .next (s.updPort i fun x => { x with perst := false, dom := if x.hit then .lost else x.dom })) ∧
    ((s.port i).perst = false → exec (.perstRelease i) s = .next s) ∧
    ((s.port i).linkUp = true → exec (.linkRecovery i) s = .next (s.updPort i fun x => { x with retrains := min (x.retrains + 1) 0xFFFF })) ∧
    ((s.port i).linkUp = false → exec (.linkRecovery i) s = .next s)) ∧
  (∀ (i k : Nat) (s : State), i < 2 →
    let t := s.portDown i k
    (t.port i).dom = (if k = 1 then .inReset else .lost) ∧ (t.port i).linkUp = false ∧ (t.port i).rate = 0 ∧
    (t.port i).downs = min ((s.port i).downs + 1) 0xFF ∧ (t.port i).retrains = (s.port i).retrains) ∧
  (∀ (p : Nat) (s : State), (∀ n < 8, ((s.stopPart p).ring p n).enable = false ∧ ((s.stopPart p).ring p n).guilty = true) ∧
    (∀ i, (s.job i).state ≠ .free → (s.job i).part = p → (s.stopPart p).job i = {}) ∧ (s.stopPart p).srv = s.srv) ∧
  (∀ (i rate width : Nat) (flit : Bool) (s : State),
    let ok := i < 2 ∧ s.rel 2 = true ∧ (s.port i).present = true ∧ (s.port i).perst = false ∧ 1 ≤ rate ∧ rate ≤ 6 ∧ width ∈ [1, 2, 4, 8]
    (¬ ok → exec (.portReady i rate width flit) s = .next s) ∧
    (ok → ∃ t, exec (.portReady i rate width flit) s = .next t ∧
      { t.port i with out := (s.port i).out } = { s.port i with dom := .ready, rate := rate, width := width, flit := flit, linkUp := true, hit := false } ∧
      ∀ f < 16, ∀ v < 64, bit (s.fn (16 * i + f)).cfg.pba v = true → t.fnOn (16 * i + f) = true → t.vectorOpen (16 * i + f) v = true →
        .msix (16 * i + f) v ∈ (t.port i).out ∧ bit (t.fn (16 * i + f)).cfg.pba v = false)) ∧
  ∀ (q : Nat) (s : State),
    let live := q < 32 ∧ s.fnOn q = true ∧ (s.port (q / 16)).dom = .ready
    (¬ live → exec (.functionLevelReset q) s = .next s) ∧
    (live → q % 16 ≠ 0 → exec (.functionLevelReset q) s = .next (s.flr q)) ∧
    (live → q % 16 = 0 → exec (.functionLevelReset q) s = .next ((List.range 16).foldl (fun t f => t.flr (q + f)) s)) ∧
    let t := s.flr q
    (t.fn q).partSel = none ∧ (t.fn q).cfg.memEn = false ∧ (t.fn q).cfg.vfEn = false ∧ (t.fn q).cfg.table = [] ∧ (t.fn q).cfg.pba = 0 ∧
    Tab.get 0 t.binds q = s.sv.bind q ∧ ∀ h, h ≠ q → (t.fn h).cfg.memEn = (s.fn h).cfg.memEn

/-- Mailbox operations: taken, refused, ended: the claims named, whole. -/
def Obligations.MailboxOperations : Prop :=
  Claims.MailboxRequests ∧ Claims.MailboxOperationsEnd

/-- R429, R430 (the layouts of the messages are the model's presumption, log entry 40): what the device answers on the DOE mailbox of a ready physical function, and what each answer leaves of the
negotiation; a request out of turn gets an ERROR and changes nothing else. -/
def Obligations.AttestationAnswers : Prop :=
  ∀ (port : Nat) (s : State),
    let q := 16 * port
    let c := (s.fn q).cfg
    let ready := port < 2 ∧ s.fnOn q = true ∧ (s.port port).dom = .ready ∧ s.dpt.up = true
    let replies := fun (row : Instr) (d : List Byte) (x : FnCfg) (nonces : Nat) => exec row s =
      .next (State.updFn { s with dpt := { s.dpt with nonces := nonces } } q fun y => { y with cfg := { x with doe := d } })
    let n := s.dpt.nonces
    let err := fun (code : Nat) => leBytes 1 0x12 ++ leBytes 1 0x7F ++ leBytes 1 code ++ leBytes 1 0
    let signed := fun (d nonce : List Byte) => d ++ padTo 64 (Config.ecdsaSign s.aliasKey (Config.sha256 (padTo 32 nonce ++ d)))
    (¬ ready → ∀ row ∈ [Instr.doeDiscovery port 0, .getVersion port, .getCapabilities port, .negotiateAlgorithms port true true, .getDigests port,
      .getCertificate port 0 0 1, .challenge port 0 [], .getMeasurements port 0 true []], exec row s = .next s) ∧
    (ready →
      replies (.doeDiscovery port 0) (leBytes 2 1 ++ leBytes 1 0 ++ leBytes 1 1) c n ∧
      replies (.doeDiscovery port 1) (leBytes 2 1 ++ leBytes 1 1 ++ leBytes 1 0) c n ∧
      replies (.getVersion port) (leBytes 4 0x00000410 ++ leBytes 1 0 ++ leBytes 1 1 ++ leBytes 2 0x1200) { c with spdmVer := true, spdmCaps := false, spdmAlgs := false } n ∧
      (c.spdmVer = true → replies (.getCapabilities port) (leBytes 4 0x00006112 ++ leBytes 1 0 ++ leBytes 1 17 ++ leBytes 2 0 ++ leBytes 4 0x16 ++
        leBytes 4 4096 ++ leBytes 4 4096) { c with spdmCaps := true } n) ∧
      (c.spdmVer = false → replies (.getCapabilities port) (err 4) c n) ∧
      (∀ a h, c.spdmVer = true → c.spdmCaps = true → (a = true ∨ h = true) → replies (.negotiateAlgorithms port a h)
        (leBytes 4 0x00006312 ++ leBytes 2 36 ++ leBytes 1 1 ++ leBytes 1 0 ++ leBytes 4 2 ++ leBytes 4 (16 * b2n a) ++ leBytes 4 (b2n h) ++ padTo 16 [])
        { c with spdmAlgs := a && h } n) ∧
      (c.spdmVer = true → c.spdmCaps = true → replies (.negotiateAlgorithms port false false) (err 1) c n) ∧
      ((c.spdmVer = false ∨ c.spdmCaps = false) → ∀ a h, replies (.negotiateAlgorithms port a h) (err 4) c n) ∧
      (negotiated c = false → replies (.getDigests port) (err 4) c n ∧ (∀ sl o l, replies (.getCertificate port sl o l) (err 4) c n) ∧
        (∀ sl x, replies (.challenge port sl x) (err 4) c n) ∧ ∀ i g x, replies (.getMeasurements port i g x) (err 4) c n) ∧
      (negotiated c = true →
        replies (.getDigests port) (leBytes 4 0x01000112 ++ padTo 32 (Config.sha256 s.chain)) c n ∧
        (∀ off len, off < s.chain.length →
          let k := min (min len 4088) (s.chain.length - off)
          replies (.getCertificate port 0 off len) (leBytes 4 0x00000212 ++ leBytes 2 k ++ leBytes 2 (s.chain.length - off - k) ++ slice s.chain off k) c n) ∧
        (∀ slot off len, (slot ≠ 0 ∨ s.chain.length ≤ off) → replies (.getCertificate port slot off len) (err 1) c n) ∧
        (∀ nonce, replies (.challenge port 0 nonce) (signed (leBytes 4 0x01000312 ++ padTo 32 (Config.sha256 s.chain) ++ padTo 32 (Config.nonce n) ++
          padTo 32 (Config.sha256 s.measAll) ++ leBytes 2 0) nonce) c (n + 1)) ∧
        (∀ slot nonce, slot ≠ 0 → replies (.challenge port slot nonce) (err 1) c n) ∧
        (∀ i nonce, 1 ≤ i → i ≤ 5 →
          let d := leBytes 2 0x6012 ++ leBytes 1 0 ++ leBytes 1 0 ++ leBytes 1 1 ++ leBytes 3 (s.measBlock i).length ++ s.measBlock i ++
            padTo 32 (Config.nonce n) ++ leBytes 2 0
          replies (.getMeasurements port i false nonce) d c (n + 1) ∧ replies (.getMeasurements port i true nonce) (signed d nonce) c (n + 1)) ∧
        (∀ i g nonce, 5 < i → i ≠ 0xFF → replies (.getMeasurements port i g nonce) (err 1) c n))) ∧
    (s.measurement 2 = (1, padTo 32 s.dpt.meas) ∧ s.measurement 3 = (1, padTo 32 s.dpt.crewMeas) ∧
      (s.srv.applied = none → s.measurement 4 = (3, List.replicate 32 0#8)) ∧
      (s.dpt.unlock < 65536 → ∃ d, s.measurement 5 = (0x85, leBytes 4 d) ∧ d % 65536 = s.dpt.unlock ∧ bit d 16 = s.dpt.unlockCrew ∧ bit d 17 = s.dpt.dbgHalted))

/-- JTAG unlocks, and failures of the Crew and the Deputy: the claims named, whole. -/
def Obligations.UnlocksAndControllers : Prop :=
  Claims.JtagUnlock ∧ Claims.CrewAndDeputyFail

/-- R442: the rule of division is exact: shares follow the weights within one picojoule, a unit without weight receives nothing, and the shares sum to E, whenever some weight is not 0. -/
def Obligations.SplitIsExact : Prop :=
  ∀ (e : Nat) (a : List Nat), (split e a).length = a.length ∧
    (a.sum ≠ 0 → (split e a).sum = e ∧ ∀ i < a.length,
      e * a.getD i 0 / a.sum ≤ (split e a).getD i 0 ∧ (split e a).getD i 0 ≤ e * a.getD i 0 / a.sum + 1 ∧ (a.getD i 0 = 0 → (split e a).getD i 0 = 0)) ∧
    (a.sum = 0 → split e a = List.replicate a.length 0) ∧
    ∀ i j, i < j → j < a.length → a.sum ≠ 0 → e * a.getD i 0 % a.sum = e * a.getD j 0 % a.sum →
      e * a.getD j 0 / a.sum < (split e a).getD j 0 → e * a.getD i 0 / a.sum < (split e a).getD i 0

/-- R439, R442 to R444: a window gives every picojoule it measures to exactly one unit: what the partitions' totals gain is what the pools measured, whenever a partition is valid. -/
def Obligations.EnergyIsConserved : Prop :=
  ∀ (m : Sample) (s : State),
    let e := ((List.range 4).map fun i => m.pj.getD i 0 + (if s.ckw.prevLen = 0 then 0 else s.ckw.prev.getD i 0 * s.ckw.gap / s.ckw.prevLen)).sum
    let held := fun (t : State) => ((List.range 16).map fun p => (t.part p).en.total.sum).sum
    (s.reconcile m).ckw.pkg = s.ckw.pkg + e ∧ (s.reconcile m).ckw.act = [] ∧
    (s.sv.parts = [] → held (s.reconcile m) = held s) ∧
    (s.sv.parts ≠ [] → (∀ p < 16, (s.part p).en.total.length = 6) → (∀ x ∈ s.ckw.act, x.1 / 16 = 0 ∨ (1 ≤ x.1 / 16 / 2 ^ 40 ∧ x.1 / 16 / 2 ^ 40 ≤ 16)) →
      (∀ n, (s.sv.staticTo = some n ∨ s.sv.idleTo = some n) → n ∈ s.sv.parts) → held (s.reconcile m) = held s + e)

/-- R438, R439, R447, R450, R452, R455: the ends of windows and cuts, a converter's check, a self-reset of the meter and the signing of a record; while D1 is held nothing of it happens. -/
def Obligations.MeteringRows : Prop :=
  (∀ (m : Sample) (conv drift : Nat) (s : State), s.rel 1 = false →
    ∀ c ∈ [Instr.windowEnd m, .autoCut m, .referenceCheck conv drift, .checkweigherSelfReset], exec c s = .next s) ∧
  (∀ (m : Sample) (s : State), s.rel 1 = true →
    (1000000 ≤ s.clk - s.ckw.winAt →
      exec (.windowEnd m) s = .next (s.sv.parts.foldl (fun t p => (t.endTallies p).energyOut p) (s.reconcile m))) ∧
    (s.clk - s.ckw.winAt < 1000000 → exec (.windowEnd m) s = .next s) ∧
    (1000000000 ≤ s.clk - s.ckw.cutAt → exec (.autoCut m) s = .next (s.cut m 2)) ∧
    (s.clk - s.ckw.cutAt < 1000000000 → exec (.autoCut m) s = .next s)) ∧
  (∀ (m : Sample) (kind : Nat) (s : State),
    (s.clk - s.ckw.cutAt < 10000000 → (s.cut m kind).ckw = s.ckw ∧ (s.cut m kind).mem = s.mem ∧ ∀ p,
      ((s.cut m kind).part p).en = if p ∈ s.sv.parts then { (s.part p).en with cutsSkipped := min ((s.part p).en.cutsSkipped + 1) 0xFFFFFFFF } else (s.part p).en) ∧
    (10000000 ≤ s.clk - s.ckw.cutAt → (s.cut m kind).ckw.cutAt = s.clk)) ∧
  (∀ (p kind : Nat) (s : State),
    let en := (s.part p).en
    let x := en.interval
    let sum := addL (x.pj ++ [x.pkg]) (if kind = 2 then en.carryI else en.carryF)
    let t := s.endInterval p kind
    (kind = 2 → s.holdRoom p = false → t = s) ∧
    ((kind ≠ 2 ∨ s.holdRoom p = true) →
      let b := s.energyBody p kind 0 x (sum.map (· / 1000000)) ((sum.map (· / 1000000)).getD 6 0)
      (t.part p).en.hold = en.hold ++ [{ signed := none, body := b.take 16 ++ leBytes 8 en.sq ++ b.drop 24 }] ∧
      (t.part p).en.sq = (en.sq + 1) % two64 ∧ (t.part p).en.interval = { start := s.tim.now, cyc := s.clk, unsync := !s.sync, recal := s.ckw.winRecal } ∧
      (if kind = 2 then (t.part p).en.carryI = sum.map (· % 1000000) else (t.part p).en.carryF = sum.map (· % 1000000)))) ∧
  (∀ (conv drift : Nat) (s : State), s.rel 1 = true →
    ((drift ≤ 1000 ∨ conv ∈ s.ckw.faulty) → exec (.referenceCheck conv drift) s = .next s) ∧
    (1000 < drift → drift ≤ 5000 → conv ∉ s.ckw.faulty → ∃ t, exec (.referenceCheck conv drift) s = .next t ∧ t.ckw.winRecal = true ∧
      t.ckw.faulty = s.ckw.faulty ∧ ∀ p, s.sv.valid p = true → s.part p ≠ {} → (t.part p).en.interval.recal = true) ∧
    (5000 < drift → conv ∉ s.ckw.faulty → ∃ t, exec (.referenceCheck conv drift) s = .next t ∧ t.ckw.faulty = s.ckw.faulty ++ [conv] ∧
      t.ckw.estimating = true ∧ ∀ p, s.sv.valid p = true → s.part p ≠ {} → (t.part p).en.interval.est = true)) ∧
  (∀ s : State, s.rel 1 = true → ∃ t, exec .checkweigherSelfReset s = .next t ∧ s.ckw.gap ≤ t.ckw.gap ∧ t.ckw.gap ≤ s.ckw.gap + 50000 ∧
    t.ckw.act = s.ckw.act ∧ t.rst = { s.rst with ckwSelf := min (s.rst.ckwSelf + 1) 0xFF } ∧
    ∀ p, s.sv.valid p = true → s.part p ≠ {} → (t.part p).en.interval.est = true) ∧
  (∀ (p : Nat) (s : State),
    (s.dpt.up = false → exec (.energyRecordSign p) s = .next s) ∧
    (s.dpt.up = true → ∀ (pre post : List ERec) (x : ERec), (s.part p).en.hold = pre ++ x :: post → (∀ y ∈ pre, y.signed ≠ none) → x.signed = none →
      ∃ u : State, exec (.energyRecordSign p) s = .next (if (s.part p).en.fault then u else u.energyOut p) ∧ (u.part p).en.hold = pre ++ s.signRec x :: post ∧ u.mem = s.mem)) ∧
  ∀ (x : ERec) (s : State), x.signed = none → x.body.length = 192 →
    let b := x.body.take 56 ++ padTo 32 (Config.sha256 s.aliasDer) ++ x.body.drop 88
    (s.signRec x).signed = some (b ++ padTo 64 (Config.ecdsaSign s.aliasKey (Config.sha256 b))) ∧ b.length = 192

/-- What leads to a full reset, and the reset operations of RST_CTRL: the claims named, whole. -/
def Obligations.FullResets : Prop :=
  Claims.FullResets ∧ Claims.ResetOperations

/-- R26, R459 to R461, R468 to R472: the release sequence: each step of DOMAIN_RELEASE when it is due, to the next stage with the domains of the table; Refuge where the strap, three failed starts or a bad Crew
image ask for it; SHIFT_READY at the end clears the count. -/
def Obligations.ReleaseSequence : Prop :=
  (∀ (b : BootIn) (s : State), s.bootDue = false → exec (.domainRelease b) s = .next s) ∧
  (∀ (b : BootIn) (s : State), s.bootDue = true → s.rst.stage = 0 → s.rst.released = 1 → s.rst.refuge = 0 →
    ∃ t, exec (.domainRelease b) s = .next t ∧ t.rst.stage = 1 ∧ t.rst.released = 3 ∧ t.rst.raw = b.code % 256 ∧ t.rst.strapped = true ∧
      t.rst.attempts = s.flash.attempts ∧ t.flash.boot = (s.flash.boot + 1) % two32 ∧ t.flash.pitSeq ≤ s.flash.pitSeq + 2 ∧ s.flash.pitSeq < t.flash.pitSeq ∧
      t.rst.refuge = (if b.code % 256 / 16 = 14 then 2 else if 3 ≤ s.flash.attempts then 1 else 0) ∧
      (t.rst.refuge = 0 → t.flash.attempts = s.flash.attempts + 1 ∧ t.flash.lastStage = 1 ∧ t.rst.armed = s.rst.armed) ∧
      (t.rst.refuge ≠ 0 → t.flash.attempts = s.flash.attempts ∧ t.flash.lastStage = s.flash.lastStage ∧ t.rst.armed = false)) ∧
  (∀ (b : BootIn) (s : State), s.bootDue = true → s.rst.stage = 1 → ∃ t, exec (.domainRelease b) s = .next t ∧ t.rst.stage = 2 ∧ t.dpt.up = true ∧
    (∀ i r img, s.pickDeputy b.depOk b.otherOk = some (i, r, img) → t.dpt.rom = false ∧ t.dpt.slot = i ∧ t.dpt.meas = img.meas ∧ t.rst.refuge = s.rst.refuge) ∧
    (s.pickDeputy b.depOk b.otherOk = none → t.dpt.rom = true ∧ t.rst.refuge = if s.rst.refuge = 0 then 4 else s.rst.refuge)) ∧
  (∀ (b : BootIn) (s : State), s.bootDue = true → s.rst.stage = 2 → ∃ t, exec (.domainRelease b) s = .next t ∧ t.rst.stage = 3 ∧ t.rst.sbOut = true ∧
    t.srv.applied = s.srv.applied ∧ (s.rst.refuge ≠ 0 → t.srv.cand = s.srv.cand)) ∧
  (∀ (b : BootIn) (s : State), s.bootDue = true → s.rst.stage = 3 → ∃ t, exec (.domainRelease b) s = .next t ∧ t.rst.stage = 4 ∧ t.rel 2 = true ∧
    t.srv.applied = s.srv.cand.map (·.1) ∧ t.srv.cand = none ∧ (∀ a ∈ s.flash.retired, a ∈ t.flash.retired) ∧
    (∀ v : Survey, s.srv.cand.map (·.1) = some v → ∀ a ∈ v.retired, a ∈ t.flash.retired) ∧
    (∀ q < 32, Tab.get 0 t.binds q = match s.srv.cand.map (·.1) with | some v => v.bind q | none => 0)) ∧
  (∀ (b : BootIn) (s : State), s.bootDue = true → s.rst.stage = 4 →
    (s.crewGood = true → b.crewOk = true → ∃ t, exec (.domainRelease b) s = .next t ∧ t.rst.stage = 5 ∧ t.dpt.crewUp = true ∧
      t.dpt.crewSvn = s.flash.crew.svn ∧ t.rst.refuge = s.rst.refuge) ∧
    ((s.crewGood = false ∨ b.crewOk = false) → ∃ t, exec (.domainRelease b) s = .next t ∧ t.rst.refuge = 3 ∧ t.rst.armed = false ∧ t.rst.stage = 4 ∧
      t.srv.applied = none ∧ t.dpt.crewUp = s.dpt.crewUp)) ∧
  (∀ (b : BootIn) (s : State), s.bootDue = true → s.rst.stage = 5 → ∃ t, exec (.domainRelease b) s = .next t ∧ t.rst.stage = 6 ∧ t.rel 3 = true ∧
    ∀ i < 256, (Tab.get {} t.mem.slices i).lfsr = 0xACE1 ^^^ i) ∧
  (∀ (b : BootIn) (s : State), s.bootDue = true → s.rst.stage = 6 → ∃ t, exec (.domainRelease b) s = .next t ∧ t.rst.stage = 7 ∧ t.rel 4 = true) ∧
  (∀ (b : BootIn) (s : State), s.bootDue = true → s.rst.stage = 7 → (s.mem.trained = false → exec (.domainRelease b) s = .next s) ∧
    (s.mem.trained = true → ∃ t, exec (.domainRelease b) s = .next t ∧ t.rst.stage = 8 ∧ t.rel 5 = true ∧ t.rst.tierAt = [s.clk, s.clk, s.clk, s.clk])) ∧
  (∀ (b : BootIn) (s : State), s.bootDue = true → s.rst.stage = 8 → ∃ t, exec (.domainRelease b) s = .next t ∧ t.rst.stage = 9 ∧ t.rel 6 = true) ∧
  (∀ s : State,
    ((s.rst.stage ≠ 9 ∨ s.dpt.up = false) → exec .shiftReady s = .next s) ∧
    (s.rst.stage = 9 → s.dpt.up = true → ∃ t, exec .shiftReady s = .next t ∧ t.rst.stage = 10 ∧ t.rst.shiftReady = true ∧ t.rst.armed = false ∧
      t.flash.attempts = 0))

/-- R507 to R512, R514, R516: pacing raises a thermal share at the onset and lowers it 2 °C below; a tier runs at the largest share asked for; a trip stops the device; regulators follow the trim record, and
one that fails holds its tier at half; the TAP's EXTEST is taken only while the pins allow it. (How far the envelope's share moves is a free value, log entry 2.) -/
def Obligations.PowerAndThermalRows : Prop :=
  (∀ (m : PaceIn) (s : State),
    (s.rel 1 = false → exec (.pacingUpdate m) s = .next s) ∧
    (s.rel 1 = true → ∃ t, exec (.pacingUpdate m) s = .next t ∧ t.mem = s.mem ∧ t.rst = s.rst ∧ t.pwr.env ≤ max 60 s.pwr.env ∧
      (m.mw100 = s.sv.envelope * 1000 → t.pwr.env = s.pwr.env) ∧ (s.sv.envelope * 1000 < m.mw100 → s.pwr.env < 60 → s.pwr.env < t.pwr.env) ∧
      (m.mw100 < s.sv.envelope * 1000 → 0 < s.pwr.env → s.pwr.env ≤ 60 → t.pwr.env < s.pwr.env) ∧
      ∀ i < 4,
        let temp := min 255 (m.tiers.getD i 0)
        let old := s.pwr.thermal.getD i 0
        t.pwr.temps.getD i 0 = temp ∧ (100 ≤ temp → t.pwr.thermal.getD i 0 = min 63 (old + 1)) ∧ (temp ≤ 98 → t.pwr.thermal.getD i 0 = old - 1) ∧
        (temp = 99 → t.pwr.thermal.getD i 0 = old) ∧
        t.pwr.share.getD i 0 = max (max t.pwr.env (t.pwr.thermal.getD i 0)) (max t.pwr.stackPace (if bit t.pwr.avsFail i then 32 else 0)))) ∧
  (∀ (sensor : Nat) (s : State),
    ((96 ≤ sensor ∨ s.rst.tripped = true ∨ s.rst.pwrGood = false) → exec (.thermalTrip sensor) s = .next s) ∧
    (sensor < 96 → s.rst.tripped = false → s.rst.pwrGood = true → ∃ t, exec (.thermalTrip sensor) s = .next t ∧
      t.rst = { s.rst with tripped := true, powering := false } ∧ t.frontOn = false ∧ (∀ g, t.issueOn g = false) ∧ (∀ q < 32, t.hears q = false) ∧
      t.mem = s.mem ∧ t.gangs = s.gangs ∧ (s.rst.powering = false → t.subs = s.subs))) ∧
  (∀ (t temp : Nat) (s : State), s.pwr.avsTarget.length = 4 → s.pwr.setp.length = 4 →
    let n := min 170 (max 130 (Config.trimSetPoint t temp))
    ((4 ≤ t ∨ s.rst.stage < 2 ∨ s.rst.refuge ≠ 0) → exec (.vcoreSetpointUpdate t temp) s = .next s) ∧
    (t < 4 → 2 ≤ s.rst.stage → s.rst.refuge = 0 → ∃ u, exec (.vcoreSetpointUpdate t temp) s = .next u ∧ u.pwr.avsTarget.getD t 0 = n ∧
      u.pwr.setp.getD t 0 = (if bit s.pwr.avsFail t then s.pwr.setp.getD t 0 else n) ∧ ∀ j, j ≠ t → u.pwr.setp.getD j 0 = s.pwr.setp.getD j 0)) ∧
  (∀ (t : Nat) (fault ack : Bool) (s : State), s.pwr.avsTries.length = 4 →
    ((4 ≤ t ∨ s.rel 0 = false ∨ bit s.pwr.avsFail t = true) → exec (.avsWriteTimeout t fault) s = .next s) ∧
    (t < 4 → s.rel 0 = true → bit s.pwr.avsFail t = false →
      (fault = false → s.pwr.avsTries.getD t 0 < 2 → ∃ u, exec (.avsWriteTimeout t fault) s = .next u ∧
        u.pwr.avsTries.getD t 0 = s.pwr.avsTries.getD t 0 + 1 ∧ u.pwr.avsFail = s.pwr.avsFail) ∧
      ((fault = true ∨ 2 ≤ s.pwr.avsTries.getD t 0) → ∃ u, exec (.avsWriteTimeout t fault) s = .next u ∧ bit u.pwr.avsFail t = true ∧
        32 ≤ u.pwr.share.getD t 0)) ∧
    ((4 ≤ t ∨ bit s.pwr.avsFail t = false ∨ ack = false) → exec (.avsRetry t ack) s = .next s) ∧
    (t < 4 → bit s.pwr.avsFail t = true → ∃ u, exec (.avsRetry t true) s = .next u ∧ bit u.pwr.avsFail t = false)) ∧
  ∀ s : State,
    exec .trstN s = .next { s with rst := { s.rst with extest := false } } ∧
    exec .extest s = .next { s with rst := { s.rst with extest := s.rst.pwrGood && (!s.rst.sysRstN || s.rst.safeOff) } }

/-- R25, R40, R288, R321, R461, R474: right after reset D0 alone is released, Record Time stands at 0 in FREE, no Survey is applied, no gang and no command exists. The model's choices, no rule of the spec: that reset is t0 (log entry 7), that memory reads 0 (log entry 5), the counters of a shipped flash (log entry 8), absent ports (log entry 9), and zeros
where no rule gives a value (log entry 86). -/
def Obligations.ResetValues : Prop :=
  let s := State.reset
  s.rst.released = 1 ∧ s.rst.stage = 0 ∧ s.rst.armed = true ∧ s.rst.cause = 1 ∧ s.rst.refuge = 0 ∧ s.rst.safeOff = false ∧
  s.tim.now = 0 ∧ s.tim.state = .free ∧ s.tim.ctrl = 7 ∧ s.tim.cad.live = none ∧ s.srv.state = .idle ∧ s.srv.applied = none ∧
  s.gangs = [] ∧ s.parts = [] ∧ s.pending = [] ∧ s.subs = [] ∧ (∀ a, s.mem.dev.byte a = 0#8) ∧ (∀ g r, Tab.get 0 (s.gang g).regs r = 0#32) ∧
  (∀ i, (s.fabPort i).state = .disabled) ∧ (∀ i, (s.port i).dom = .inReset) ∧ (∀ p n, (s.ring p n).enable = false ∧ (s.ring p n).head = 0) ∧
  (∀ c, (s.chan c).state = .training) ∧ s.fab.source = 0 ∧ s.flash.counters.map (·.1) = [0, 0, 0, 0]

/-- The model's invariants hold of the state after reset: memory is in canonical form, and the sequencer's state is legal. -/
def Obligations.ResetIsSafe : Prop := State.reset.memOk = true ∧ State.reset.rst.legal = true

/-- Every step from a state whose address spaces (device memory, workspace, scratch and Crew memory) are in canonical form leads to one of those (equal contents are equal data). -/
def Obligations.StepKeepsCanonicalMemory : Prop := ∀ s t : State, s.memOk = true → step s = .next t → t.memOk = true

/-- R25, R459, R465, R472, R474: every step from a state in which the released domains follow the sequencer's stage, and Refuge and SAFE_OFF their limits, leads to one of those. -/
def Obligations.StepKeepsLegalSequence : Prop := ∀ s t : State, s.rst.legal = true → step s = .next t → t.rst.legal = true

/-- R40, R425, R484: no step takes a retired page off the list, lowers an anti-rollback counter, or turns the Pit Log's SEQ back. -/
def Obligations.FlashNeverTakesBack : Prop := ∀ s t : State, step s = .next t → s.flash.le t.flash

/-- No command's effect touches the queue of commands that wait, and none but the end of a slew (log entry 1) moves the cycle count; a block of this kind never stops: every command completes. -/
def Obligations.CommandsComplete : Prop :=
  ∀ (c : Instr) (s : State), ∃ t, exec c s = .next t ∧ t.pending = s.pending ∧ s.clk ≤ t.clk ∧ (c ≠ .slewEnd → t.clk = s.clk)
end

