-- ==== Sys2Proof/Laws/Tab.lean ====
section
/-!
SUPPORT. Sparse tables: what a read gives after a change, and that every change keeps the canonical form.
-/

namespace Sys2Proof.Machine

variable {α : Type}

theorem Tab.get_put (d : α) (t : Tab α) (k : Nat) (v : α) (i : Nat) :
    Tab.get d (Tab.put t k v) i = if i = k then v else Tab.get d t i := by
  induction t with
  | nil => simp only [Tab.put, Tab.get]; split <;> simp
  | cons e t ih =>
    obtain ⟨j, a⟩ := e
    simp only [Tab.put]
    split
    · simp only [Tab.get]
      split
      · rfl
      · split
        · rw [if_neg (by omega), if_pos (by omega)]
        · rfl
    · split
      · simp only [Tab.get]
        subst_vars
        split
        · rfl
        · rfl
      · simp only [Tab.get, ih]
        split
        · rw [if_neg (by omega)]
        · split
          · rw [if_neg (by omega)]
          · rfl

theorem Tab.get_filter_gt (d : α) (k : Nat) (t : Tab α) (i : Nat) :
    Tab.get d (t.filter fun e => decide (k < e.1)) i = if i ≤ k then d else Tab.get d t i := by
  induction t with
  | nil => simp [Tab.get]
  | cons e t ih =>
    obtain ⟨j, a⟩ := e
    simp only [List.filter_cons]
    split
    · rename_i h
      simp only [decide_eq_true_eq] at h
      simp only [Tab.get, ih]
      split
      · rw [if_neg (by omega)]
      · split
        · split <;> rfl
        · rfl
    · rename_i h
      simp only [decide_eq_true_eq] at h
      rw [ih]
      split
      · rfl
      · rw [Tab.get, if_neg (by omega), if_neg (by omega)]

theorem Tab.get_drop (d : α) (t : Tab α) (k i : Nat) :
    Tab.get d (Tab.drop t k) i = if i = k then d else Tab.get d t i := by
  induction t with
  | nil => simp [Tab.drop, Tab.get]
  | cons e t ih =>
    obtain ⟨j, a⟩ := e
    simp only [Tab.drop]
    split
    · rename_i hk
      rw [Tab.get_filter_gt]
      simp only [Tab.get, ← hk]
      by_cases h : i = k
      · simp [h]
      · by_cases h' : i < k
        · rw [if_pos (by omega), if_neg h, if_neg h, if_pos h']
        · rw [if_neg (by omega), if_neg h, if_neg h, if_neg h']
    · split
      · simp only [Tab.get]
        by_cases h : i = k
        · subst h
          rw [if_pos rfl, if_neg (by omega), if_pos (by omega)]
        · rw [if_neg h]
      · simp only [Tab.get, ih]
        by_cases h : i = k
        · subst h
          rw [if_pos rfl, if_neg (by omega), if_neg (by omega), if_pos rfl]
        · simp only [if_neg h]

/-- A table reads the value set, and elsewhere what it read before. -/
theorem Tab.get_set [DecidableEq α] (d : α) (t : Tab α) (k : Nat) (v : α) (i : Nat) :
    Tab.get d (Tab.set d t k v) i = if i = k then v else Tab.get d t i := by
  unfold Tab.set
  split
  · rename_i h
    rw [Tab.get_drop, h]
  · exact Tab.get_put d t k v i

@[simp] theorem Tab.get_set_same [DecidableEq α] (d : α) (t : Tab α) (k : Nat) (v : α) : Tab.get d (Tab.set d t k v) k = v := by
  rw [Tab.get_set, if_pos rfl]

theorem Tab.get_set_other [DecidableEq α] (d : α) (t : Tab α) {k i : Nat} (v : α) (h : i ≠ k) :
    Tab.get d (Tab.set d t k v) i = Tab.get d t i := by
  rw [Tab.get_set, if_neg h]

theorem Tab.get_upd [DecidableEq α] (d : α) (t : Tab α) (k : Nat) (f : α → α) (i : Nat) :
    Tab.get d (Tab.upd d t k f) i = if i = k then f (Tab.get d t k) else Tab.get d t i := Tab.get_set ..

@[simp] theorem Tab.get_upd_same [DecidableEq α] (d : α) (t : Tab α) (k : Nat) (f : α → α) :
    Tab.get d (Tab.upd d t k f) k = f (Tab.get d t k) := by
  rw [Tab.get_upd, if_pos rfl]

theorem Tab.get_upd_other [DecidableEq α] (d : α) (t : Tab α) {k i : Nat} (f : α → α) (h : i ≠ k) :
    Tab.get d (Tab.upd d t k f) i = Tab.get d t i := by
  rw [Tab.get_upd, if_neg h]

/-! The canonical form. -/

theorem Tab.sortedFrom_mono {b c : Nat} (h : b ≤ c) : ∀ {t : Tab α}, Tab.sortedFrom c t = true → Tab.sortedFrom b t = true
  | [], _ => rfl
  | (i, _) :: t, k => by
    simp only [Tab.sortedFrom, Bool.and_eq_true, decide_eq_true_eq] at k ⊢
    exact ⟨Nat.le_trans h k.1, k.2⟩

theorem Tab.sortedFrom_put {b k : Nat} {v : α} (hb : b ≤ k) :
    ∀ {t : Tab α}, Tab.sortedFrom b t = true → Tab.sortedFrom b (Tab.put t k v) = true
  | [], _ => by simp [Tab.put, Tab.sortedFrom, hb]
  | (i, a) :: t, h => by
    simp only [Tab.sortedFrom, Bool.and_eq_true, decide_eq_true_eq] at h
    simp only [Tab.put]
    split
    · simp only [Tab.sortedFrom, Bool.and_eq_true, decide_eq_true_eq]
      exact ⟨hb, by omega, h.2⟩
    · split
      · subst_vars
        simp only [Tab.sortedFrom, Bool.and_eq_true, decide_eq_true_eq]
        exact h
      · simp only [Tab.sortedFrom, Bool.and_eq_true, decide_eq_true_eq]
        exact ⟨h.1, Tab.sortedFrom_put (by omega) h.2⟩

theorem Tab.sortedFrom_filter (p : Nat × α → Bool) : ∀ {b : Nat} {t : Tab α}, Tab.sortedFrom b t = true →
    Tab.sortedFrom b (t.filter p) = true
  | _, [], _ => rfl
  | b, (i, a) :: t, h => by
    simp only [Tab.sortedFrom, Bool.and_eq_true, decide_eq_true_eq] at h
    rw [List.filter_cons]
    split
    · simp only [Tab.sortedFrom, Bool.and_eq_true, decide_eq_true_eq]
      exact ⟨h.1, Tab.sortedFrom_filter p h.2⟩
    · exact Tab.sortedFrom_mono (by omega) (Tab.sortedFrom_filter p h.2)

theorem Tab.sortedFrom_drop {k : Nat} : ∀ {b : Nat} {t : Tab α}, Tab.sortedFrom b t = true → Tab.sortedFrom b (Tab.drop t k) = true
  | _, [], _ => rfl
  | b, (i, a) :: t, h => by
    have h' := h
    simp only [Tab.sortedFrom, Bool.and_eq_true, decide_eq_true_eq] at h
    simp only [Tab.drop]
    split
    · exact Tab.sortedFrom_mono (by omega) (Tab.sortedFrom_filter _ h.2)
    · split
      · exact h'
      · simp only [Tab.sortedFrom, Bool.and_eq_true, decide_eq_true_eq]
        exact ⟨h.1, Tab.sortedFrom_drop h.2⟩

theorem Tab.all_put {p : Nat × α → Bool} {k : Nat} {v : α} (hv : p (k, v) = true) :
    ∀ {t : Tab α}, t.all p = true → (Tab.put t k v).all p = true
  | [], _ => by simp [Tab.put, hv]
  | (i, a) :: t, h => by
    simp only [List.all_cons, Bool.and_eq_true] at h
    simp only [Tab.put]
    split
    · simp [hv, h]
    · split
      · simp [hv, h]
      · simp only [List.all_cons, Bool.and_eq_true]
        exact ⟨h.1, Tab.all_put hv h.2⟩

theorem Tab.all_filter {p q : Nat × α → Bool} {t : Tab α} (h : t.all p = true) : (t.filter q).all p = true := by
  simp only [List.all_eq_true, List.mem_filter] at h ⊢
  exact fun x hx => h x hx.1

theorem Tab.all_drop {p : Nat × α → Bool} {k : Nat} : ∀ {t : Tab α}, t.all p = true → (Tab.drop t k).all p = true
  | [], h => h
  | (i, a) :: t, h => by
    have h' := h
    simp only [List.all_cons, Bool.and_eq_true] at h
    simp only [Tab.drop]
    split
    · exact Tab.all_filter h.2
    · split
      · exact h'
      · simp only [List.all_cons, Bool.and_eq_true]
        exact ⟨h.1, Tab.all_drop h.2⟩

theorem Tab.wf_set [DecidableEq α] {d : α} {t : Tab α} (k : Nat) (v : α) (h : Tab.wf d t = true) : Tab.wf d (Tab.set d t k v) = true := by
  simp only [Tab.wf, Bool.and_eq_true] at h ⊢
  unfold Tab.set
  split
  · exact ⟨Tab.sortedFrom_drop h.1, Tab.all_drop h.2⟩
  · rename_i hv
    exact ⟨Tab.sortedFrom_put (by omega) h.1, Tab.all_put (by simpa using hv) h.2⟩

theorem Tab.wf_upd [DecidableEq α] {d : α} {t : Tab α} (k : Nat) (f : α → α) (h : Tab.wf d t = true) : Tab.wf d (Tab.upd d t k f) = true :=
  Tab.wf_set k _ h

theorem Tab.sortedFrom_rising : ∀ (b : Nat) (t : Tab α), Tab.sortedFrom b (Tab.rising b t) = true
  | _, [] => rfl
  | b, (i, _) :: t => by
    simp only [Tab.rising]
    split
    · exact Tab.sortedFrom_rising b t
    · simp only [Tab.sortedFrom, Bool.and_eq_true, decide_eq_true_eq]
      exact ⟨by omega, Tab.sortedFrom_rising (i + 1) t⟩

theorem Tab.mem_rising {e : Nat × α} : ∀ {b : Nat} {t : Tab α}, e ∈ Tab.rising b t → e ∈ t
  | _, [], h => h
  | b, (i, a) :: t, h => by
    simp only [Tab.rising] at h
    split at h
    · exact List.mem_cons_of_mem _ (Tab.mem_rising h)
    · rcases List.mem_cons.mp h with h | h
      · exact h ▸ List.mem_cons_self
      · exact List.mem_cons_of_mem _ (Tab.mem_rising h)

/-- The entries that a reader reaches are all that a reader needs. -/
theorem Tab.get_rising (d : α) (k : Nat) : ∀ (b : Nat) (t : Tab α), b ≤ k → Tab.get d (Tab.rising b t) k = Tab.get d t k
  | _, [], _ => rfl
  | b, (i, a) :: t, h => by
    simp only [Tab.rising]
    split
    · rw [Tab.get_rising d k b t h, Tab.get, if_neg (by omega), if_neg (by omega)]
    · simp only [Tab.get]
      split
      · rfl
      · split
        · rfl
        · exact Tab.get_rising d k (i + 1) t (by omega)

theorem Tab.get_below (d : α) {k b : Nat} (h : k < b) : ∀ {t : Tab α}, Tab.sortedFrom b t = true → Tab.get d t k = d
  | [], _ => rfl
  | (i, a) :: t, s => by
    simp only [Tab.sortedFrom, Bool.and_eq_true, decide_eq_true_eq] at s
    rw [Tab.get, if_neg (by omega), if_pos (by omega)]

/-- A filter by number, of a rising list. -/
theorem Tab.get_filter_key (d : α) (p : Nat → Bool) (k : Nat) : ∀ {b : Nat} {t : Tab α}, Tab.sortedFrom b t = true →
    Tab.get d (t.filter fun e => !p e.1) k = if p k then d else Tab.get d t k
  | _, [], _ => by simp [Tab.get]
  | b, (i, a) :: t, s => by
    have s' := s
    simp only [Tab.sortedFrom, Bool.and_eq_true, decide_eq_true_eq] at s
    rw [List.filter_cons]
    split
    · rename_i hp
      simp only [Tab.get]
      split
      · subst_vars
        simp only [Bool.not_eq_true'] at hp
        rw [if_neg (by simp [hp])]
      · split
        · simp
        · exact Tab.get_filter_key d p k s.2
    · rename_i hp
      simp only [Bool.not_eq_true', Bool.not_eq_false] at hp
      rw [Tab.get_filter_key d p k s.2]
      split
      · rfl
      · rename_i hk
        rw [Tab.get]
        have hik : k ≠ i := fun e => hk (e ▸ hp)
        rw [if_neg hik]
        split
        · exact Tab.get_below d (by omega) s.2
        · rfl

theorem Tab.get_clear (d : α) (p : Nat → Bool) (t : Tab α) (k : Nat) :
    Tab.get d (Tab.clear p t) k = if p k then d else Tab.get d t k := by
  rw [Tab.clear, Tab.get_filter_key d p k (Tab.sortedFrom_rising 0 t), Tab.get_rising d k 0 t (Nat.zero_le k)]

theorem Tab.get_adjust_aux [DecidableEq α] (d : α) (f : Nat → α → α) (k : Nat) (h : f k d = d) : ∀ {b : Nat} {t : Tab α}, Tab.sortedFrom b t = true →
    Tab.get d ((t.map fun e => (e.1, f e.1 e.2)).filter fun e => decide (e.2 ≠ d)) k = f k (Tab.get d t k)
  | _, [], _ => by simp [Tab.get, h]
  | b, (i, a) :: t, s => by
    simp only [Tab.sortedFrom, Bool.and_eq_true, decide_eq_true_eq] at s
    rw [List.map_cons, List.filter_cons]
    have ih := Tab.get_adjust_aux d f k h s.2
    split
    · simp only [Tab.get]
      split
      · subst_vars; rfl
      · split
        · exact h.symm
        · exact ih
    · rename_i hd
      simp only [decide_eq_true_eq, Decidable.not_not] at hd
      rw [ih, Tab.get]
      split
      · rename_i hk
        subst hk
        rw [Tab.get_below d (by omega) s.2, h, hd]
      · split
        · rw [Tab.get_below d (by omega) s.2]
        · rfl

/-- Every value changes, where the change leaves the default alone. -/
theorem Tab.get_adjust [DecidableEq α] (d : α) (f : Nat → α → α) (t : Tab α) (k : Nat) (h : f k d = d) :
    Tab.get d (Tab.adjust d f t) k = f k (Tab.get d t k) := by
  rw [Tab.adjust, Tab.get_adjust_aux d f k h (Tab.sortedFrom_rising 0 t), Tab.get_rising d k 0 t (Nat.zero_le k)]

theorem Tab.wf_clear [DecidableEq α] {d : α} {t : Tab α} (p : Nat → Bool) (h : Tab.wf d t = true) : Tab.wf d (Tab.clear p t) = true := by
  simp only [Tab.wf, Bool.and_eq_true] at h ⊢
  refine ⟨Tab.sortedFrom_filter _ (Tab.sortedFrom_rising 0 t), ?_⟩
  simp only [List.all_eq_true] at h ⊢
  exact fun x hx => h.2 x (Tab.mem_rising (List.mem_filter.mp hx).1)

/-! Bytes of a space. -/

/-- A write gives its own bytes and leaves every other one as it was. -/
theorem Memory.byte_write (m : Memory) (a : Nat) (l : List Byte) (i : Nat) :
    Memory.byte (Memory.write m a l) i = if a ≤ i ∧ i < a + l.length then l.getD (i - a) 0#8 else Memory.byte m i := by
  induction l generalizing m a with
  | nil => rw [Memory.write, if_neg (by simp only [List.length_nil]; omega)]
  | cons b t ih =>
    rw [Memory.write, ih]
    simp only [List.length_cons]
    by_cases h : a + 1 ≤ i ∧ i < a + 1 + t.length
    · rw [if_pos h, if_pos (by omega)]
      obtain ⟨j, rfl⟩ : ∃ j, i = a + 1 + j := ⟨i - (a + 1), by omega⟩
      rw [show a + 1 + j - (a + 1) = j by omega, show a + 1 + j - a = j + 1 by omega, List.getD_cons_succ]
    · rw [if_neg h]
      by_cases h' : i = a
      · subst h'
        rw [if_pos (by omega), Nat.sub_self]
        simp [Memory.byte]
      · rw [if_neg (by omega)]
        exact Tab.get_set_other _ _ _ h'

theorem Memory.wf_write (m : Memory) (a : Nat) (l : List Byte) (h : m.wf = true) : (m.write a l).wf = true := by
  induction l generalizing m a with
  | nil => exact h
  | cons b t ih => exact ih _ _ (Tab.wf_set _ _ h)

theorem Memory.byte_zero (m : Memory) (a n i : Nat) :
    Memory.byte (Memory.zero m a n) i = if a ≤ i ∧ i < a + n then 0#8 else Memory.byte m i := by
  rw [Memory.byte, Memory.zero, Tab.get_clear]
  simp only [decide_eq_true_eq]
  rfl

theorem Memory.wf_zero (m : Memory) (a n : Nat) (h : m.wf = true) : (m.zero a n).wf = true := Tab.wf_clear _ h

end Sys2Proof.Machine
end

