-- ==== Sys2Proof/Laws/State.lean ====
section
/-!
SUPPORT. Updates of State: what each leaves as it was, and what each unit reads after it.
-/

namespace Sys2Proof.Machine

/-! updFn. -/

@[simp] theorem State.updFn_clk (s : State) (k : Nat) (f : Fn → Fn) : (s.updFn k f).clk = s.clk := rfl
@[simp] theorem State.updFn_free (s : State) (k : Nat) (f : Fn → Fn) : (s.updFn k f).free = s.free := rfl
@[simp] theorem State.updFn_uid (s : State) (k : Nat) (f : Fn → Fn) : (s.updFn k f).uid = s.uid := rfl
@[simp] theorem State.updFn_rst (s : State) (k : Nat) (f : Fn → Fn) : (s.updFn k f).rst = s.rst := rfl
@[simp] theorem State.updFn_foreignWr (s : State) (k : Nat) (f : Fn → Fn) : (s.updFn k f).foreignWr = s.foreignWr := rfl
@[simp] theorem State.updFn_ports (s : State) (k : Nat) (f : Fn → Fn) : (s.updFn k f).ports = s.ports := rfl
@[simp] theorem State.updFn_binds (s : State) (k : Nat) (f : Fn → Fn) : (s.updFn k f).binds = s.binds := rfl
@[simp] theorem State.updFn_srv (s : State) (k : Nat) (f : Fn → Fn) : (s.updFn k f).srv = s.srv := rfl
@[simp] theorem State.updFn_flash (s : State) (k : Nat) (f : Fn → Fn) : (s.updFn k f).flash = s.flash := rfl
@[simp] theorem State.updFn_dpt (s : State) (k : Nat) (f : Fn → Fn) : (s.updFn k f).dpt = s.dpt := rfl
@[simp] theorem State.updFn_parts (s : State) (k : Nat) (f : Fn → Fn) : (s.updFn k f).parts = s.parts := rfl
@[simp] theorem State.updFn_cores (s : State) (k : Nat) (f : Fn → Fn) : (s.updFn k f).cores = s.cores := rfl
@[simp] theorem State.updFn_gangs (s : State) (k : Nat) (f : Fn → Fn) : (s.updFn k f).gangs = s.gangs := rfl
@[simp] theorem State.updFn_subs (s : State) (k : Nat) (f : Fn → Fn) : (s.updFn k f).subs = s.subs := rfl
@[simp] theorem State.updFn_trapStop (s : State) (k : Nat) (f : Fn → Fn) : (s.updFn k f).trapStop = s.trapStop := rfl
@[simp] theorem State.updFn_mem (s : State) (k : Nat) (f : Fn → Fn) : (s.updFn k f).mem = s.mem := rfl
@[simp] theorem State.updFn_tim (s : State) (k : Nat) (f : Fn → Fn) : (s.updFn k f).tim = s.tim := rfl
@[simp] theorem State.updFn_fab (s : State) (k : Nat) (f : Fn → Fn) : (s.updFn k f).fab = s.fab := rfl
@[simp] theorem State.updFn_jobs (s : State) (k : Nat) (f : Fn → Fn) : (s.updFn k f).jobs = s.jobs := rfl
@[simp] theorem State.updFn_ckw (s : State) (k : Nat) (f : Fn → Fn) : (s.updFn k f).ckw = s.ckw := rfl
@[simp] theorem State.updFn_flt (s : State) (k : Nat) (f : Fn → Fn) : (s.updFn k f).flt = s.flt := rfl
@[simp] theorem State.updFn_pwr (s : State) (k : Nat) (f : Fn → Fn) : (s.updFn k f).pwr = s.pwr := rfl
@[simp] theorem State.updFn_engines (s : State) (k : Nat) (f : Fn → Fn) : (s.updFn k f).engines = s.engines := rfl
@[simp] theorem State.updFn_pending (s : State) (k : Nat) (f : Fn → Fn) : (s.updFn k f).pending = s.pending := rfl

/-! updPort. -/

@[simp] theorem State.updPort_clk (s : State) (k : Nat) (f : HostPort → HostPort) : (s.updPort k f).clk = s.clk := rfl
@[simp] theorem State.updPort_free (s : State) (k : Nat) (f : HostPort → HostPort) : (s.updPort k f).free = s.free := rfl
@[simp] theorem State.updPort_uid (s : State) (k : Nat) (f : HostPort → HostPort) : (s.updPort k f).uid = s.uid := rfl
@[simp] theorem State.updPort_rst (s : State) (k : Nat) (f : HostPort → HostPort) : (s.updPort k f).rst = s.rst := rfl
@[simp] theorem State.updPort_foreignWr (s : State) (k : Nat) (f : HostPort → HostPort) : (s.updPort k f).foreignWr = s.foreignWr := rfl
@[simp] theorem State.updPort_fns (s : State) (k : Nat) (f : HostPort → HostPort) : (s.updPort k f).fns = s.fns := rfl
@[simp] theorem State.updPort_binds (s : State) (k : Nat) (f : HostPort → HostPort) : (s.updPort k f).binds = s.binds := rfl
@[simp] theorem State.updPort_srv (s : State) (k : Nat) (f : HostPort → HostPort) : (s.updPort k f).srv = s.srv := rfl
@[simp] theorem State.updPort_flash (s : State) (k : Nat) (f : HostPort → HostPort) : (s.updPort k f).flash = s.flash := rfl
@[simp] theorem State.updPort_dpt (s : State) (k : Nat) (f : HostPort → HostPort) : (s.updPort k f).dpt = s.dpt := rfl
@[simp] theorem State.updPort_parts (s : State) (k : Nat) (f : HostPort → HostPort) : (s.updPort k f).parts = s.parts := rfl
@[simp] theorem State.updPort_cores (s : State) (k : Nat) (f : HostPort → HostPort) : (s.updPort k f).cores = s.cores := rfl
@[simp] theorem State.updPort_gangs (s : State) (k : Nat) (f : HostPort → HostPort) : (s.updPort k f).gangs = s.gangs := rfl
@[simp] theorem State.updPort_subs (s : State) (k : Nat) (f : HostPort → HostPort) : (s.updPort k f).subs = s.subs := rfl
@[simp] theorem State.updPort_trapStop (s : State) (k : Nat) (f : HostPort → HostPort) : (s.updPort k f).trapStop = s.trapStop := rfl
@[simp] theorem State.updPort_mem (s : State) (k : Nat) (f : HostPort → HostPort) : (s.updPort k f).mem = s.mem := rfl
@[simp] theorem State.updPort_tim (s : State) (k : Nat) (f : HostPort → HostPort) : (s.updPort k f).tim = s.tim := rfl
@[simp] theorem State.updPort_fab (s : State) (k : Nat) (f : HostPort → HostPort) : (s.updPort k f).fab = s.fab := rfl
@[simp] theorem State.updPort_jobs (s : State) (k : Nat) (f : HostPort → HostPort) : (s.updPort k f).jobs = s.jobs := rfl
@[simp] theorem State.updPort_ckw (s : State) (k : Nat) (f : HostPort → HostPort) : (s.updPort k f).ckw = s.ckw := rfl
@[simp] theorem State.updPort_flt (s : State) (k : Nat) (f : HostPort → HostPort) : (s.updPort k f).flt = s.flt := rfl
@[simp] theorem State.updPort_pwr (s : State) (k : Nat) (f : HostPort → HostPort) : (s.updPort k f).pwr = s.pwr := rfl
@[simp] theorem State.updPort_engines (s : State) (k : Nat) (f : HostPort → HostPort) : (s.updPort k f).engines = s.engines := rfl
@[simp] theorem State.updPort_pending (s : State) (k : Nat) (f : HostPort → HostPort) : (s.updPort k f).pending = s.pending := rfl

/-! updPart. -/

@[simp] theorem State.updPart_clk (s : State) (k : Nat) (f : Part → Part) : (s.updPart k f).clk = s.clk := rfl
@[simp] theorem State.updPart_free (s : State) (k : Nat) (f : Part → Part) : (s.updPart k f).free = s.free := rfl
@[simp] theorem State.updPart_uid (s : State) (k : Nat) (f : Part → Part) : (s.updPart k f).uid = s.uid := rfl
@[simp] theorem State.updPart_rst (s : State) (k : Nat) (f : Part → Part) : (s.updPart k f).rst = s.rst := rfl
@[simp] theorem State.updPart_foreignWr (s : State) (k : Nat) (f : Part → Part) : (s.updPart k f).foreignWr = s.foreignWr := rfl
@[simp] theorem State.updPart_fns (s : State) (k : Nat) (f : Part → Part) : (s.updPart k f).fns = s.fns := rfl
@[simp] theorem State.updPart_ports (s : State) (k : Nat) (f : Part → Part) : (s.updPart k f).ports = s.ports := rfl
@[simp] theorem State.updPart_binds (s : State) (k : Nat) (f : Part → Part) : (s.updPart k f).binds = s.binds := rfl
@[simp] theorem State.updPart_srv (s : State) (k : Nat) (f : Part → Part) : (s.updPart k f).srv = s.srv := rfl
@[simp] theorem State.updPart_flash (s : State) (k : Nat) (f : Part → Part) : (s.updPart k f).flash = s.flash := rfl
@[simp] theorem State.updPart_dpt (s : State) (k : Nat) (f : Part → Part) : (s.updPart k f).dpt = s.dpt := rfl
@[simp] theorem State.updPart_cores (s : State) (k : Nat) (f : Part → Part) : (s.updPart k f).cores = s.cores := rfl
@[simp] theorem State.updPart_gangs (s : State) (k : Nat) (f : Part → Part) : (s.updPart k f).gangs = s.gangs := rfl
@[simp] theorem State.updPart_subs (s : State) (k : Nat) (f : Part → Part) : (s.updPart k f).subs = s.subs := rfl
@[simp] theorem State.updPart_trapStop (s : State) (k : Nat) (f : Part → Part) : (s.updPart k f).trapStop = s.trapStop := rfl
@[simp] theorem State.updPart_mem (s : State) (k : Nat) (f : Part → Part) : (s.updPart k f).mem = s.mem := rfl
@[simp] theorem State.updPart_tim (s : State) (k : Nat) (f : Part → Part) : (s.updPart k f).tim = s.tim := rfl
@[simp] theorem State.updPart_fab (s : State) (k : Nat) (f : Part → Part) : (s.updPart k f).fab = s.fab := rfl
@[simp] theorem State.updPart_jobs (s : State) (k : Nat) (f : Part → Part) : (s.updPart k f).jobs = s.jobs := rfl
@[simp] theorem State.updPart_ckw (s : State) (k : Nat) (f : Part → Part) : (s.updPart k f).ckw = s.ckw := rfl
@[simp] theorem State.updPart_flt (s : State) (k : Nat) (f : Part → Part) : (s.updPart k f).flt = s.flt := rfl
@[simp] theorem State.updPart_pwr (s : State) (k : Nat) (f : Part → Part) : (s.updPart k f).pwr = s.pwr := rfl
@[simp] theorem State.updPart_engines (s : State) (k : Nat) (f : Part → Part) : (s.updPart k f).engines = s.engines := rfl
@[simp] theorem State.updPart_pending (s : State) (k : Nat) (f : Part → Part) : (s.updPart k f).pending = s.pending := rfl

/-! updRing. -/

@[simp] theorem State.updRing_clk (s : State) (p k : Nat) (f : Ring → Ring) : (s.updRing p k f).clk = s.clk := rfl
@[simp] theorem State.updRing_free (s : State) (p k : Nat) (f : Ring → Ring) : (s.updRing p k f).free = s.free := rfl
@[simp] theorem State.updRing_uid (s : State) (p k : Nat) (f : Ring → Ring) : (s.updRing p k f).uid = s.uid := rfl
@[simp] theorem State.updRing_rst (s : State) (p k : Nat) (f : Ring → Ring) : (s.updRing p k f).rst = s.rst := rfl
@[simp] theorem State.updRing_foreignWr (s : State) (p k : Nat) (f : Ring → Ring) : (s.updRing p k f).foreignWr = s.foreignWr := rfl
@[simp] theorem State.updRing_fns (s : State) (p k : Nat) (f : Ring → Ring) : (s.updRing p k f).fns = s.fns := rfl
@[simp] theorem State.updRing_ports (s : State) (p k : Nat) (f : Ring → Ring) : (s.updRing p k f).ports = s.ports := rfl
@[simp] theorem State.updRing_binds (s : State) (p k : Nat) (f : Ring → Ring) : (s.updRing p k f).binds = s.binds := rfl
@[simp] theorem State.updRing_srv (s : State) (p k : Nat) (f : Ring → Ring) : (s.updRing p k f).srv = s.srv := rfl
@[simp] theorem State.updRing_flash (s : State) (p k : Nat) (f : Ring → Ring) : (s.updRing p k f).flash = s.flash := rfl
@[simp] theorem State.updRing_dpt (s : State) (p k : Nat) (f : Ring → Ring) : (s.updRing p k f).dpt = s.dpt := rfl
@[simp] theorem State.updRing_cores (s : State) (p k : Nat) (f : Ring → Ring) : (s.updRing p k f).cores = s.cores := rfl
@[simp] theorem State.updRing_gangs (s : State) (p k : Nat) (f : Ring → Ring) : (s.updRing p k f).gangs = s.gangs := rfl
@[simp] theorem State.updRing_subs (s : State) (p k : Nat) (f : Ring → Ring) : (s.updRing p k f).subs = s.subs := rfl
@[simp] theorem State.updRing_trapStop (s : State) (p k : Nat) (f : Ring → Ring) : (s.updRing p k f).trapStop = s.trapStop := rfl
@[simp] theorem State.updRing_mem (s : State) (p k : Nat) (f : Ring → Ring) : (s.updRing p k f).mem = s.mem := rfl
@[simp] theorem State.updRing_tim (s : State) (p k : Nat) (f : Ring → Ring) : (s.updRing p k f).tim = s.tim := rfl
@[simp] theorem State.updRing_fab (s : State) (p k : Nat) (f : Ring → Ring) : (s.updRing p k f).fab = s.fab := rfl
@[simp] theorem State.updRing_jobs (s : State) (p k : Nat) (f : Ring → Ring) : (s.updRing p k f).jobs = s.jobs := rfl
@[simp] theorem State.updRing_ckw (s : State) (p k : Nat) (f : Ring → Ring) : (s.updRing p k f).ckw = s.ckw := rfl
@[simp] theorem State.updRing_flt (s : State) (p k : Nat) (f : Ring → Ring) : (s.updRing p k f).flt = s.flt := rfl
@[simp] theorem State.updRing_pwr (s : State) (p k : Nat) (f : Ring → Ring) : (s.updRing p k f).pwr = s.pwr := rfl
@[simp] theorem State.updRing_engines (s : State) (p k : Nat) (f : Ring → Ring) : (s.updRing p k f).engines = s.engines := rfl
@[simp] theorem State.updRing_pending (s : State) (p k : Nat) (f : Ring → Ring) : (s.updRing p k f).pending = s.pending := rfl

/-! updCmd. -/

@[simp] theorem State.updCmd_clk (s : State) (p k : Nat) (f : Cmd → Cmd) : (s.updCmd p k f).clk = s.clk := rfl
@[simp] theorem State.updCmd_free (s : State) (p k : Nat) (f : Cmd → Cmd) : (s.updCmd p k f).free = s.free := rfl
@[simp] theorem State.updCmd_uid (s : State) (p k : Nat) (f : Cmd → Cmd) : (s.updCmd p k f).uid = s.uid := rfl
@[simp] theorem State.updCmd_rst (s : State) (p k : Nat) (f : Cmd → Cmd) : (s.updCmd p k f).rst = s.rst := rfl
@[simp] theorem State.updCmd_foreignWr (s : State) (p k : Nat) (f : Cmd → Cmd) : (s.updCmd p k f).foreignWr = s.foreignWr := rfl
@[simp] theorem State.updCmd_fns (s : State) (p k : Nat) (f : Cmd → Cmd) : (s.updCmd p k f).fns = s.fns := rfl
@[simp] theorem State.updCmd_ports (s : State) (p k : Nat) (f : Cmd → Cmd) : (s.updCmd p k f).ports = s.ports := rfl
@[simp] theorem State.updCmd_binds (s : State) (p k : Nat) (f : Cmd → Cmd) : (s.updCmd p k f).binds = s.binds := rfl
@[simp] theorem State.updCmd_srv (s : State) (p k : Nat) (f : Cmd → Cmd) : (s.updCmd p k f).srv = s.srv := rfl
@[simp] theorem State.updCmd_flash (s : State) (p k : Nat) (f : Cmd → Cmd) : (s.updCmd p k f).flash = s.flash := rfl
@[simp] theorem State.updCmd_dpt (s : State) (p k : Nat) (f : Cmd → Cmd) : (s.updCmd p k f).dpt = s.dpt := rfl
@[simp] theorem State.updCmd_cores (s : State) (p k : Nat) (f : Cmd → Cmd) : (s.updCmd p k f).cores = s.cores := rfl
@[simp] theorem State.updCmd_gangs (s : State) (p k : Nat) (f : Cmd → Cmd) : (s.updCmd p k f).gangs = s.gangs := rfl
@[simp] theorem State.updCmd_subs (s : State) (p k : Nat) (f : Cmd → Cmd) : (s.updCmd p k f).subs = s.subs := rfl
@[simp] theorem State.updCmd_trapStop (s : State) (p k : Nat) (f : Cmd → Cmd) : (s.updCmd p k f).trapStop = s.trapStop := rfl
@[simp] theorem State.updCmd_mem (s : State) (p k : Nat) (f : Cmd → Cmd) : (s.updCmd p k f).mem = s.mem := rfl
@[simp] theorem State.updCmd_tim (s : State) (p k : Nat) (f : Cmd → Cmd) : (s.updCmd p k f).tim = s.tim := rfl
@[simp] theorem State.updCmd_fab (s : State) (p k : Nat) (f : Cmd → Cmd) : (s.updCmd p k f).fab = s.fab := rfl
@[simp] theorem State.updCmd_jobs (s : State) (p k : Nat) (f : Cmd → Cmd) : (s.updCmd p k f).jobs = s.jobs := rfl
@[simp] theorem State.updCmd_ckw (s : State) (p k : Nat) (f : Cmd → Cmd) : (s.updCmd p k f).ckw = s.ckw := rfl
@[simp] theorem State.updCmd_flt (s : State) (p k : Nat) (f : Cmd → Cmd) : (s.updCmd p k f).flt = s.flt := rfl
@[simp] theorem State.updCmd_pwr (s : State) (p k : Nat) (f : Cmd → Cmd) : (s.updCmd p k f).pwr = s.pwr := rfl
@[simp] theorem State.updCmd_engines (s : State) (p k : Nat) (f : Cmd → Cmd) : (s.updCmd p k f).engines = s.engines := rfl
@[simp] theorem State.updCmd_pending (s : State) (p k : Nat) (f : Cmd → Cmd) : (s.updCmd p k f).pending = s.pending := rfl

/-! updPlc. -/

@[simp] theorem State.updPlc_clk (s : State) (p : Nat) (f : Placement → Placement) : (s.updPlc p f).clk = s.clk := rfl
@[simp] theorem State.updPlc_free (s : State) (p : Nat) (f : Placement → Placement) : (s.updPlc p f).free = s.free := rfl
@[simp] theorem State.updPlc_uid (s : State) (p : Nat) (f : Placement → Placement) : (s.updPlc p f).uid = s.uid := rfl
@[simp] theorem State.updPlc_rst (s : State) (p : Nat) (f : Placement → Placement) : (s.updPlc p f).rst = s.rst := rfl
@[simp] theorem State.updPlc_foreignWr (s : State) (p : Nat) (f : Placement → Placement) : (s.updPlc p f).foreignWr = s.foreignWr := rfl
@[simp] theorem State.updPlc_fns (s : State) (p : Nat) (f : Placement → Placement) : (s.updPlc p f).fns = s.fns := rfl
@[simp] theorem State.updPlc_ports (s : State) (p : Nat) (f : Placement → Placement) : (s.updPlc p f).ports = s.ports := rfl
@[simp] theorem State.updPlc_binds (s : State) (p : Nat) (f : Placement → Placement) : (s.updPlc p f).binds = s.binds := rfl
@[simp] theorem State.updPlc_srv (s : State) (p : Nat) (f : Placement → Placement) : (s.updPlc p f).srv = s.srv := rfl
@[simp] theorem State.updPlc_flash (s : State) (p : Nat) (f : Placement → Placement) : (s.updPlc p f).flash = s.flash := rfl
@[simp] theorem State.updPlc_dpt (s : State) (p : Nat) (f : Placement → Placement) : (s.updPlc p f).dpt = s.dpt := rfl
@[simp] theorem State.updPlc_cores (s : State) (p : Nat) (f : Placement → Placement) : (s.updPlc p f).cores = s.cores := rfl
@[simp] theorem State.updPlc_gangs (s : State) (p : Nat) (f : Placement → Placement) : (s.updPlc p f).gangs = s.gangs := rfl
@[simp] theorem State.updPlc_subs (s : State) (p : Nat) (f : Placement → Placement) : (s.updPlc p f).subs = s.subs := rfl
@[simp] theorem State.updPlc_trapStop (s : State) (p : Nat) (f : Placement → Placement) : (s.updPlc p f).trapStop = s.trapStop := rfl
@[simp] theorem State.updPlc_mem (s : State) (p : Nat) (f : Placement → Placement) : (s.updPlc p f).mem = s.mem := rfl
@[simp] theorem State.updPlc_tim (s : State) (p : Nat) (f : Placement → Placement) : (s.updPlc p f).tim = s.tim := rfl
@[simp] theorem State.updPlc_fab (s : State) (p : Nat) (f : Placement → Placement) : (s.updPlc p f).fab = s.fab := rfl
@[simp] theorem State.updPlc_jobs (s : State) (p : Nat) (f : Placement → Placement) : (s.updPlc p f).jobs = s.jobs := rfl
@[simp] theorem State.updPlc_ckw (s : State) (p : Nat) (f : Placement → Placement) : (s.updPlc p f).ckw = s.ckw := rfl
@[simp] theorem State.updPlc_flt (s : State) (p : Nat) (f : Placement → Placement) : (s.updPlc p f).flt = s.flt := rfl
@[simp] theorem State.updPlc_pwr (s : State) (p : Nat) (f : Placement → Placement) : (s.updPlc p f).pwr = s.pwr := rfl
@[simp] theorem State.updPlc_engines (s : State) (p : Nat) (f : Placement → Placement) : (s.updPlc p f).engines = s.engines := rfl
@[simp] theorem State.updPlc_pending (s : State) (p : Nat) (f : Placement → Placement) : (s.updPlc p f).pending = s.pending := rfl

/-! updSeam. -/

@[simp] theorem State.updSeam_clk (s : State) (p k : Nat) (f : Seam → Seam) : (s.updSeam p k f).clk = s.clk := rfl
@[simp] theorem State.updSeam_free (s : State) (p k : Nat) (f : Seam → Seam) : (s.updSeam p k f).free = s.free := rfl
@[simp] theorem State.updSeam_uid (s : State) (p k : Nat) (f : Seam → Seam) : (s.updSeam p k f).uid = s.uid := rfl
@[simp] theorem State.updSeam_rst (s : State) (p k : Nat) (f : Seam → Seam) : (s.updSeam p k f).rst = s.rst := rfl
@[simp] theorem State.updSeam_foreignWr (s : State) (p k : Nat) (f : Seam → Seam) : (s.updSeam p k f).foreignWr = s.foreignWr := rfl
@[simp] theorem State.updSeam_fns (s : State) (p k : Nat) (f : Seam → Seam) : (s.updSeam p k f).fns = s.fns := rfl
@[simp] theorem State.updSeam_ports (s : State) (p k : Nat) (f : Seam → Seam) : (s.updSeam p k f).ports = s.ports := rfl
@[simp] theorem State.updSeam_binds (s : State) (p k : Nat) (f : Seam → Seam) : (s.updSeam p k f).binds = s.binds := rfl
@[simp] theorem State.updSeam_srv (s : State) (p k : Nat) (f : Seam → Seam) : (s.updSeam p k f).srv = s.srv := rfl
@[simp] theorem State.updSeam_flash (s : State) (p k : Nat) (f : Seam → Seam) : (s.updSeam p k f).flash = s.flash := rfl
@[simp] theorem State.updSeam_dpt (s : State) (p k : Nat) (f : Seam → Seam) : (s.updSeam p k f).dpt = s.dpt := rfl
@[simp] theorem State.updSeam_cores (s : State) (p k : Nat) (f : Seam → Seam) : (s.updSeam p k f).cores = s.cores := rfl
@[simp] theorem State.updSeam_gangs (s : State) (p k : Nat) (f : Seam → Seam) : (s.updSeam p k f).gangs = s.gangs := rfl
@[simp] theorem State.updSeam_subs (s : State) (p k : Nat) (f : Seam → Seam) : (s.updSeam p k f).subs = s.subs := rfl
@[simp] theorem State.updSeam_trapStop (s : State) (p k : Nat) (f : Seam → Seam) : (s.updSeam p k f).trapStop = s.trapStop := rfl
@[simp] theorem State.updSeam_mem (s : State) (p k : Nat) (f : Seam → Seam) : (s.updSeam p k f).mem = s.mem := rfl
@[simp] theorem State.updSeam_tim (s : State) (p k : Nat) (f : Seam → Seam) : (s.updSeam p k f).tim = s.tim := rfl
@[simp] theorem State.updSeam_fab (s : State) (p k : Nat) (f : Seam → Seam) : (s.updSeam p k f).fab = s.fab := rfl
@[simp] theorem State.updSeam_jobs (s : State) (p k : Nat) (f : Seam → Seam) : (s.updSeam p k f).jobs = s.jobs := rfl
@[simp] theorem State.updSeam_ckw (s : State) (p k : Nat) (f : Seam → Seam) : (s.updSeam p k f).ckw = s.ckw := rfl
@[simp] theorem State.updSeam_flt (s : State) (p k : Nat) (f : Seam → Seam) : (s.updSeam p k f).flt = s.flt := rfl
@[simp] theorem State.updSeam_pwr (s : State) (p k : Nat) (f : Seam → Seam) : (s.updSeam p k f).pwr = s.pwr := rfl
@[simp] theorem State.updSeam_engines (s : State) (p k : Nat) (f : Seam → Seam) : (s.updSeam p k f).engines = s.engines := rfl
@[simp] theorem State.updSeam_pending (s : State) (p k : Nat) (f : Seam → Seam) : (s.updSeam p k f).pending = s.pending := rfl

/-! updConv. -/

@[simp] theorem State.updConv_clk (s : State) (p k : Nat) (f : Conveyor → Conveyor) : (s.updConv p k f).clk = s.clk := rfl
@[simp] theorem State.updConv_free (s : State) (p k : Nat) (f : Conveyor → Conveyor) : (s.updConv p k f).free = s.free := rfl
@[simp] theorem State.updConv_uid (s : State) (p k : Nat) (f : Conveyor → Conveyor) : (s.updConv p k f).uid = s.uid := rfl
@[simp] theorem State.updConv_rst (s : State) (p k : Nat) (f : Conveyor → Conveyor) : (s.updConv p k f).rst = s.rst := rfl
@[simp] theorem State.updConv_foreignWr (s : State) (p k : Nat) (f : Conveyor → Conveyor) : (s.updConv p k f).foreignWr = s.foreignWr := rfl
@[simp] theorem State.updConv_fns (s : State) (p k : Nat) (f : Conveyor → Conveyor) : (s.updConv p k f).fns = s.fns := rfl
@[simp] theorem State.updConv_ports (s : State) (p k : Nat) (f : Conveyor → Conveyor) : (s.updConv p k f).ports = s.ports := rfl
@[simp] theorem State.updConv_binds (s : State) (p k : Nat) (f : Conveyor → Conveyor) : (s.updConv p k f).binds = s.binds := rfl
@[simp] theorem State.updConv_srv (s : State) (p k : Nat) (f : Conveyor → Conveyor) : (s.updConv p k f).srv = s.srv := rfl
@[simp] theorem State.updConv_flash (s : State) (p k : Nat) (f : Conveyor → Conveyor) : (s.updConv p k f).flash = s.flash := rfl
@[simp] theorem State.updConv_dpt (s : State) (p k : Nat) (f : Conveyor → Conveyor) : (s.updConv p k f).dpt = s.dpt := rfl
@[simp] theorem State.updConv_cores (s : State) (p k : Nat) (f : Conveyor → Conveyor) : (s.updConv p k f).cores = s.cores := rfl
@[simp] theorem State.updConv_gangs (s : State) (p k : Nat) (f : Conveyor → Conveyor) : (s.updConv p k f).gangs = s.gangs := rfl
@[simp] theorem State.updConv_subs (s : State) (p k : Nat) (f : Conveyor → Conveyor) : (s.updConv p k f).subs = s.subs := rfl
@[simp] theorem State.updConv_trapStop (s : State) (p k : Nat) (f : Conveyor → Conveyor) : (s.updConv p k f).trapStop = s.trapStop := rfl
@[simp] theorem State.updConv_mem (s : State) (p k : Nat) (f : Conveyor → Conveyor) : (s.updConv p k f).mem = s.mem := rfl
@[simp] theorem State.updConv_tim (s : State) (p k : Nat) (f : Conveyor → Conveyor) : (s.updConv p k f).tim = s.tim := rfl
@[simp] theorem State.updConv_fab (s : State) (p k : Nat) (f : Conveyor → Conveyor) : (s.updConv p k f).fab = s.fab := rfl
@[simp] theorem State.updConv_jobs (s : State) (p k : Nat) (f : Conveyor → Conveyor) : (s.updConv p k f).jobs = s.jobs := rfl
@[simp] theorem State.updConv_ckw (s : State) (p k : Nat) (f : Conveyor → Conveyor) : (s.updConv p k f).ckw = s.ckw := rfl
@[simp] theorem State.updConv_flt (s : State) (p k : Nat) (f : Conveyor → Conveyor) : (s.updConv p k f).flt = s.flt := rfl
@[simp] theorem State.updConv_pwr (s : State) (p k : Nat) (f : Conveyor → Conveyor) : (s.updConv p k f).pwr = s.pwr := rfl
@[simp] theorem State.updConv_engines (s : State) (p k : Nat) (f : Conveyor → Conveyor) : (s.updConv p k f).engines = s.engines := rfl
@[simp] theorem State.updConv_pending (s : State) (p k : Nat) (f : Conveyor → Conveyor) : (s.updConv p k f).pending = s.pending := rfl

/-! updTensor. -/

@[simp] theorem State.updTensor_clk (s : State) (p k : Nat) (f : Tensor → Tensor) : (s.updTensor p k f).clk = s.clk := rfl
@[simp] theorem State.updTensor_free (s : State) (p k : Nat) (f : Tensor → Tensor) : (s.updTensor p k f).free = s.free := rfl
@[simp] theorem State.updTensor_uid (s : State) (p k : Nat) (f : Tensor → Tensor) : (s.updTensor p k f).uid = s.uid := rfl
@[simp] theorem State.updTensor_rst (s : State) (p k : Nat) (f : Tensor → Tensor) : (s.updTensor p k f).rst = s.rst := rfl
@[simp] theorem State.updTensor_foreignWr (s : State) (p k : Nat) (f : Tensor → Tensor) : (s.updTensor p k f).foreignWr = s.foreignWr := rfl
@[simp] theorem State.updTensor_fns (s : State) (p k : Nat) (f : Tensor → Tensor) : (s.updTensor p k f).fns = s.fns := rfl
@[simp] theorem State.updTensor_ports (s : State) (p k : Nat) (f : Tensor → Tensor) : (s.updTensor p k f).ports = s.ports := rfl
@[simp] theorem State.updTensor_binds (s : State) (p k : Nat) (f : Tensor → Tensor) : (s.updTensor p k f).binds = s.binds := rfl
@[simp] theorem State.updTensor_srv (s : State) (p k : Nat) (f : Tensor → Tensor) : (s.updTensor p k f).srv = s.srv := rfl
@[simp] theorem State.updTensor_flash (s : State) (p k : Nat) (f : Tensor → Tensor) : (s.updTensor p k f).flash = s.flash := rfl
@[simp] theorem State.updTensor_dpt (s : State) (p k : Nat) (f : Tensor → Tensor) : (s.updTensor p k f).dpt = s.dpt := rfl
@[simp] theorem State.updTensor_cores (s : State) (p k : Nat) (f : Tensor → Tensor) : (s.updTensor p k f).cores = s.cores := rfl
@[simp] theorem State.updTensor_gangs (s : State) (p k : Nat) (f : Tensor → Tensor) : (s.updTensor p k f).gangs = s.gangs := rfl
@[simp] theorem State.updTensor_subs (s : State) (p k : Nat) (f : Tensor → Tensor) : (s.updTensor p k f).subs = s.subs := rfl
@[simp] theorem State.updTensor_trapStop (s : State) (p k : Nat) (f : Tensor → Tensor) : (s.updTensor p k f).trapStop = s.trapStop := rfl
@[simp] theorem State.updTensor_mem (s : State) (p k : Nat) (f : Tensor → Tensor) : (s.updTensor p k f).mem = s.mem := rfl
@[simp] theorem State.updTensor_tim (s : State) (p k : Nat) (f : Tensor → Tensor) : (s.updTensor p k f).tim = s.tim := rfl
@[simp] theorem State.updTensor_fab (s : State) (p k : Nat) (f : Tensor → Tensor) : (s.updTensor p k f).fab = s.fab := rfl
@[simp] theorem State.updTensor_jobs (s : State) (p k : Nat) (f : Tensor → Tensor) : (s.updTensor p k f).jobs = s.jobs := rfl
@[simp] theorem State.updTensor_ckw (s : State) (p k : Nat) (f : Tensor → Tensor) : (s.updTensor p k f).ckw = s.ckw := rfl
@[simp] theorem State.updTensor_flt (s : State) (p k : Nat) (f : Tensor → Tensor) : (s.updTensor p k f).flt = s.flt := rfl
@[simp] theorem State.updTensor_pwr (s : State) (p k : Nat) (f : Tensor → Tensor) : (s.updTensor p k f).pwr = s.pwr := rfl
@[simp] theorem State.updTensor_engines (s : State) (p k : Nat) (f : Tensor → Tensor) : (s.updTensor p k f).engines = s.engines := rfl
@[simp] theorem State.updTensor_pending (s : State) (p k : Nat) (f : Tensor → Tensor) : (s.updTensor p k f).pending = s.pending := rfl

/-! updStage. -/

@[simp] theorem State.updStage_clk (s : State) (p k : Nat) (f : Stage → Stage) : (s.updStage p k f).clk = s.clk := rfl
@[simp] theorem State.updStage_free (s : State) (p k : Nat) (f : Stage → Stage) : (s.updStage p k f).free = s.free := rfl
@[simp] theorem State.updStage_uid (s : State) (p k : Nat) (f : Stage → Stage) : (s.updStage p k f).uid = s.uid := rfl
@[simp] theorem State.updStage_rst (s : State) (p k : Nat) (f : Stage → Stage) : (s.updStage p k f).rst = s.rst := rfl
@[simp] theorem State.updStage_foreignWr (s : State) (p k : Nat) (f : Stage → Stage) : (s.updStage p k f).foreignWr = s.foreignWr := rfl
@[simp] theorem State.updStage_fns (s : State) (p k : Nat) (f : Stage → Stage) : (s.updStage p k f).fns = s.fns := rfl
@[simp] theorem State.updStage_ports (s : State) (p k : Nat) (f : Stage → Stage) : (s.updStage p k f).ports = s.ports := rfl
@[simp] theorem State.updStage_binds (s : State) (p k : Nat) (f : Stage → Stage) : (s.updStage p k f).binds = s.binds := rfl
@[simp] theorem State.updStage_srv (s : State) (p k : Nat) (f : Stage → Stage) : (s.updStage p k f).srv = s.srv := rfl
@[simp] theorem State.updStage_flash (s : State) (p k : Nat) (f : Stage → Stage) : (s.updStage p k f).flash = s.flash := rfl
@[simp] theorem State.updStage_dpt (s : State) (p k : Nat) (f : Stage → Stage) : (s.updStage p k f).dpt = s.dpt := rfl
@[simp] theorem State.updStage_cores (s : State) (p k : Nat) (f : Stage → Stage) : (s.updStage p k f).cores = s.cores := rfl
@[simp] theorem State.updStage_gangs (s : State) (p k : Nat) (f : Stage → Stage) : (s.updStage p k f).gangs = s.gangs := rfl
@[simp] theorem State.updStage_subs (s : State) (p k : Nat) (f : Stage → Stage) : (s.updStage p k f).subs = s.subs := rfl
@[simp] theorem State.updStage_trapStop (s : State) (p k : Nat) (f : Stage → Stage) : (s.updStage p k f).trapStop = s.trapStop := rfl
@[simp] theorem State.updStage_mem (s : State) (p k : Nat) (f : Stage → Stage) : (s.updStage p k f).mem = s.mem := rfl
@[simp] theorem State.updStage_tim (s : State) (p k : Nat) (f : Stage → Stage) : (s.updStage p k f).tim = s.tim := rfl
@[simp] theorem State.updStage_fab (s : State) (p k : Nat) (f : Stage → Stage) : (s.updStage p k f).fab = s.fab := rfl
@[simp] theorem State.updStage_jobs (s : State) (p k : Nat) (f : Stage → Stage) : (s.updStage p k f).jobs = s.jobs := rfl
@[simp] theorem State.updStage_ckw (s : State) (p k : Nat) (f : Stage → Stage) : (s.updStage p k f).ckw = s.ckw := rfl
@[simp] theorem State.updStage_flt (s : State) (p k : Nat) (f : Stage → Stage) : (s.updStage p k f).flt = s.flt := rfl
@[simp] theorem State.updStage_pwr (s : State) (p k : Nat) (f : Stage → Stage) : (s.updStage p k f).pwr = s.pwr := rfl
@[simp] theorem State.updStage_engines (s : State) (p k : Nat) (f : Stage → Stage) : (s.updStage p k f).engines = s.engines := rfl
@[simp] theorem State.updStage_pending (s : State) (p k : Nat) (f : Stage → Stage) : (s.updStage p k f).pending = s.pending := rfl

/-! updCore. -/

@[simp] theorem State.updCore_clk (s : State) (k : Nat) (f : Core → Core) : (s.updCore k f).clk = s.clk := rfl
@[simp] theorem State.updCore_free (s : State) (k : Nat) (f : Core → Core) : (s.updCore k f).free = s.free := rfl
@[simp] theorem State.updCore_uid (s : State) (k : Nat) (f : Core → Core) : (s.updCore k f).uid = s.uid := rfl
@[simp] theorem State.updCore_rst (s : State) (k : Nat) (f : Core → Core) : (s.updCore k f).rst = s.rst := rfl
@[simp] theorem State.updCore_foreignWr (s : State) (k : Nat) (f : Core → Core) : (s.updCore k f).foreignWr = s.foreignWr := rfl
@[simp] theorem State.updCore_fns (s : State) (k : Nat) (f : Core → Core) : (s.updCore k f).fns = s.fns := rfl
@[simp] theorem State.updCore_ports (s : State) (k : Nat) (f : Core → Core) : (s.updCore k f).ports = s.ports := rfl
@[simp] theorem State.updCore_binds (s : State) (k : Nat) (f : Core → Core) : (s.updCore k f).binds = s.binds := rfl
@[simp] theorem State.updCore_srv (s : State) (k : Nat) (f : Core → Core) : (s.updCore k f).srv = s.srv := rfl
@[simp] theorem State.updCore_flash (s : State) (k : Nat) (f : Core → Core) : (s.updCore k f).flash = s.flash := rfl
@[simp] theorem State.updCore_dpt (s : State) (k : Nat) (f : Core → Core) : (s.updCore k f).dpt = s.dpt := rfl
@[simp] theorem State.updCore_parts (s : State) (k : Nat) (f : Core → Core) : (s.updCore k f).parts = s.parts := rfl
@[simp] theorem State.updCore_gangs (s : State) (k : Nat) (f : Core → Core) : (s.updCore k f).gangs = s.gangs := rfl
@[simp] theorem State.updCore_subs (s : State) (k : Nat) (f : Core → Core) : (s.updCore k f).subs = s.subs := rfl
@[simp] theorem State.updCore_trapStop (s : State) (k : Nat) (f : Core → Core) : (s.updCore k f).trapStop = s.trapStop := rfl
@[simp] theorem State.updCore_mem (s : State) (k : Nat) (f : Core → Core) : (s.updCore k f).mem = s.mem := rfl
@[simp] theorem State.updCore_tim (s : State) (k : Nat) (f : Core → Core) : (s.updCore k f).tim = s.tim := rfl
@[simp] theorem State.updCore_fab (s : State) (k : Nat) (f : Core → Core) : (s.updCore k f).fab = s.fab := rfl
@[simp] theorem State.updCore_jobs (s : State) (k : Nat) (f : Core → Core) : (s.updCore k f).jobs = s.jobs := rfl
@[simp] theorem State.updCore_ckw (s : State) (k : Nat) (f : Core → Core) : (s.updCore k f).ckw = s.ckw := rfl
@[simp] theorem State.updCore_flt (s : State) (k : Nat) (f : Core → Core) : (s.updCore k f).flt = s.flt := rfl
@[simp] theorem State.updCore_pwr (s : State) (k : Nat) (f : Core → Core) : (s.updCore k f).pwr = s.pwr := rfl
@[simp] theorem State.updCore_engines (s : State) (k : Nat) (f : Core → Core) : (s.updCore k f).engines = s.engines := rfl
@[simp] theorem State.updCore_pending (s : State) (k : Nat) (f : Core → Core) : (s.updCore k f).pending = s.pending := rfl

/-! updGang. -/

@[simp] theorem State.updGang_clk (s : State) (k : Nat) (f : Gang → Gang) : (s.updGang k f).clk = s.clk := rfl
@[simp] theorem State.updGang_free (s : State) (k : Nat) (f : Gang → Gang) : (s.updGang k f).free = s.free := rfl
@[simp] theorem State.updGang_uid (s : State) (k : Nat) (f : Gang → Gang) : (s.updGang k f).uid = s.uid := rfl
@[simp] theorem State.updGang_rst (s : State) (k : Nat) (f : Gang → Gang) : (s.updGang k f).rst = s.rst := rfl
@[simp] theorem State.updGang_foreignWr (s : State) (k : Nat) (f : Gang → Gang) : (s.updGang k f).foreignWr = s.foreignWr := rfl
@[simp] theorem State.updGang_fns (s : State) (k : Nat) (f : Gang → Gang) : (s.updGang k f).fns = s.fns := rfl
@[simp] theorem State.updGang_ports (s : State) (k : Nat) (f : Gang → Gang) : (s.updGang k f).ports = s.ports := rfl
@[simp] theorem State.updGang_binds (s : State) (k : Nat) (f : Gang → Gang) : (s.updGang k f).binds = s.binds := rfl
@[simp] theorem State.updGang_srv (s : State) (k : Nat) (f : Gang → Gang) : (s.updGang k f).srv = s.srv := rfl
@[simp] theorem State.updGang_flash (s : State) (k : Nat) (f : Gang → Gang) : (s.updGang k f).flash = s.flash := rfl
@[simp] theorem State.updGang_dpt (s : State) (k : Nat) (f : Gang → Gang) : (s.updGang k f).dpt = s.dpt := rfl
@[simp] theorem State.updGang_parts (s : State) (k : Nat) (f : Gang → Gang) : (s.updGang k f).parts = s.parts := rfl
@[simp] theorem State.updGang_cores (s : State) (k : Nat) (f : Gang → Gang) : (s.updGang k f).cores = s.cores := rfl
@[simp] theorem State.updGang_subs (s : State) (k : Nat) (f : Gang → Gang) : (s.updGang k f).subs = s.subs := rfl
@[simp] theorem State.updGang_trapStop (s : State) (k : Nat) (f : Gang → Gang) : (s.updGang k f).trapStop = s.trapStop := rfl
@[simp] theorem State.updGang_mem (s : State) (k : Nat) (f : Gang → Gang) : (s.updGang k f).mem = s.mem := rfl
@[simp] theorem State.updGang_tim (s : State) (k : Nat) (f : Gang → Gang) : (s.updGang k f).tim = s.tim := rfl
@[simp] theorem State.updGang_fab (s : State) (k : Nat) (f : Gang → Gang) : (s.updGang k f).fab = s.fab := rfl
@[simp] theorem State.updGang_jobs (s : State) (k : Nat) (f : Gang → Gang) : (s.updGang k f).jobs = s.jobs := rfl
@[simp] theorem State.updGang_ckw (s : State) (k : Nat) (f : Gang → Gang) : (s.updGang k f).ckw = s.ckw := rfl
@[simp] theorem State.updGang_flt (s : State) (k : Nat) (f : Gang → Gang) : (s.updGang k f).flt = s.flt := rfl
@[simp] theorem State.updGang_pwr (s : State) (k : Nat) (f : Gang → Gang) : (s.updGang k f).pwr = s.pwr := rfl
@[simp] theorem State.updGang_engines (s : State) (k : Nat) (f : Gang → Gang) : (s.updGang k f).engines = s.engines := rfl
@[simp] theorem State.updGang_pending (s : State) (k : Nat) (f : Gang → Gang) : (s.updGang k f).pending = s.pending := rfl

/-! setSub. -/

@[simp] theorem State.setSub_clk (s : State) (k : Nat) (l : List StEntry) : (s.setSub k l).clk = s.clk := rfl
@[simp] theorem State.setSub_free (s : State) (k : Nat) (l : List StEntry) : (s.setSub k l).free = s.free := rfl
@[simp] theorem State.setSub_uid (s : State) (k : Nat) (l : List StEntry) : (s.setSub k l).uid = s.uid := rfl
@[simp] theorem State.setSub_rst (s : State) (k : Nat) (l : List StEntry) : (s.setSub k l).rst = s.rst := rfl
@[simp] theorem State.setSub_foreignWr (s : State) (k : Nat) (l : List StEntry) : (s.setSub k l).foreignWr = s.foreignWr := rfl
@[simp] theorem State.setSub_fns (s : State) (k : Nat) (l : List StEntry) : (s.setSub k l).fns = s.fns := rfl
@[simp] theorem State.setSub_ports (s : State) (k : Nat) (l : List StEntry) : (s.setSub k l).ports = s.ports := rfl
@[simp] theorem State.setSub_binds (s : State) (k : Nat) (l : List StEntry) : (s.setSub k l).binds = s.binds := rfl
@[simp] theorem State.setSub_srv (s : State) (k : Nat) (l : List StEntry) : (s.setSub k l).srv = s.srv := rfl
@[simp] theorem State.setSub_flash (s : State) (k : Nat) (l : List StEntry) : (s.setSub k l).flash = s.flash := rfl
@[simp] theorem State.setSub_dpt (s : State) (k : Nat) (l : List StEntry) : (s.setSub k l).dpt = s.dpt := rfl
@[simp] theorem State.setSub_parts (s : State) (k : Nat) (l : List StEntry) : (s.setSub k l).parts = s.parts := rfl
@[simp] theorem State.setSub_cores (s : State) (k : Nat) (l : List StEntry) : (s.setSub k l).cores = s.cores := rfl
@[simp] theorem State.setSub_gangs (s : State) (k : Nat) (l : List StEntry) : (s.setSub k l).gangs = s.gangs := rfl
@[simp] theorem State.setSub_trapStop (s : State) (k : Nat) (l : List StEntry) : (s.setSub k l).trapStop = s.trapStop := rfl
@[simp] theorem State.setSub_mem (s : State) (k : Nat) (l : List StEntry) : (s.setSub k l).mem = s.mem := rfl
@[simp] theorem State.setSub_tim (s : State) (k : Nat) (l : List StEntry) : (s.setSub k l).tim = s.tim := rfl
@[simp] theorem State.setSub_fab (s : State) (k : Nat) (l : List StEntry) : (s.setSub k l).fab = s.fab := rfl
@[simp] theorem State.setSub_jobs (s : State) (k : Nat) (l : List StEntry) : (s.setSub k l).jobs = s.jobs := rfl
@[simp] theorem State.setSub_ckw (s : State) (k : Nat) (l : List StEntry) : (s.setSub k l).ckw = s.ckw := rfl
@[simp] theorem State.setSub_flt (s : State) (k : Nat) (l : List StEntry) : (s.setSub k l).flt = s.flt := rfl
@[simp] theorem State.setSub_pwr (s : State) (k : Nat) (l : List StEntry) : (s.setSub k l).pwr = s.pwr := rfl
@[simp] theorem State.setSub_engines (s : State) (k : Nat) (l : List StEntry) : (s.setSub k l).engines = s.engines := rfl
@[simp] theorem State.setSub_pending (s : State) (k : Nat) (l : List StEntry) : (s.setSub k l).pending = s.pending := rfl

/-! updMem. -/

@[simp] theorem State.updMem_clk (s : State) (f : Mem → Mem) : (s.updMem f).clk = s.clk := rfl
@[simp] theorem State.updMem_free (s : State) (f : Mem → Mem) : (s.updMem f).free = s.free := rfl
@[simp] theorem State.updMem_uid (s : State) (f : Mem → Mem) : (s.updMem f).uid = s.uid := rfl
@[simp] theorem State.updMem_rst (s : State) (f : Mem → Mem) : (s.updMem f).rst = s.rst := rfl
@[simp] theorem State.updMem_foreignWr (s : State) (f : Mem → Mem) : (s.updMem f).foreignWr = s.foreignWr := rfl
@[simp] theorem State.updMem_fns (s : State) (f : Mem → Mem) : (s.updMem f).fns = s.fns := rfl
@[simp] theorem State.updMem_ports (s : State) (f : Mem → Mem) : (s.updMem f).ports = s.ports := rfl
@[simp] theorem State.updMem_binds (s : State) (f : Mem → Mem) : (s.updMem f).binds = s.binds := rfl
@[simp] theorem State.updMem_srv (s : State) (f : Mem → Mem) : (s.updMem f).srv = s.srv := rfl
@[simp] theorem State.updMem_flash (s : State) (f : Mem → Mem) : (s.updMem f).flash = s.flash := rfl
@[simp] theorem State.updMem_dpt (s : State) (f : Mem → Mem) : (s.updMem f).dpt = s.dpt := rfl
@[simp] theorem State.updMem_parts (s : State) (f : Mem → Mem) : (s.updMem f).parts = s.parts := rfl
@[simp] theorem State.updMem_cores (s : State) (f : Mem → Mem) : (s.updMem f).cores = s.cores := rfl
@[simp] theorem State.updMem_gangs (s : State) (f : Mem → Mem) : (s.updMem f).gangs = s.gangs := rfl
@[simp] theorem State.updMem_subs (s : State) (f : Mem → Mem) : (s.updMem f).subs = s.subs := rfl
@[simp] theorem State.updMem_trapStop (s : State) (f : Mem → Mem) : (s.updMem f).trapStop = s.trapStop := rfl
@[simp] theorem State.updMem_tim (s : State) (f : Mem → Mem) : (s.updMem f).tim = s.tim := rfl
@[simp] theorem State.updMem_fab (s : State) (f : Mem → Mem) : (s.updMem f).fab = s.fab := rfl
@[simp] theorem State.updMem_jobs (s : State) (f : Mem → Mem) : (s.updMem f).jobs = s.jobs := rfl
@[simp] theorem State.updMem_ckw (s : State) (f : Mem → Mem) : (s.updMem f).ckw = s.ckw := rfl
@[simp] theorem State.updMem_flt (s : State) (f : Mem → Mem) : (s.updMem f).flt = s.flt := rfl
@[simp] theorem State.updMem_pwr (s : State) (f : Mem → Mem) : (s.updMem f).pwr = s.pwr := rfl
@[simp] theorem State.updMem_engines (s : State) (f : Mem → Mem) : (s.updMem f).engines = s.engines := rfl
@[simp] theorem State.updMem_pending (s : State) (f : Mem → Mem) : (s.updMem f).pending = s.pending := rfl

/-! updChan. -/

@[simp] theorem State.updChan_clk (s : State) (k : Nat) (f : Chan → Chan) : (s.updChan k f).clk = s.clk := rfl
@[simp] theorem State.updChan_free (s : State) (k : Nat) (f : Chan → Chan) : (s.updChan k f).free = s.free := rfl
@[simp] theorem State.updChan_uid (s : State) (k : Nat) (f : Chan → Chan) : (s.updChan k f).uid = s.uid := rfl
@[simp] theorem State.updChan_rst (s : State) (k : Nat) (f : Chan → Chan) : (s.updChan k f).rst = s.rst := rfl
@[simp] theorem State.updChan_foreignWr (s : State) (k : Nat) (f : Chan → Chan) : (s.updChan k f).foreignWr = s.foreignWr := rfl
@[simp] theorem State.updChan_fns (s : State) (k : Nat) (f : Chan → Chan) : (s.updChan k f).fns = s.fns := rfl
@[simp] theorem State.updChan_ports (s : State) (k : Nat) (f : Chan → Chan) : (s.updChan k f).ports = s.ports := rfl
@[simp] theorem State.updChan_binds (s : State) (k : Nat) (f : Chan → Chan) : (s.updChan k f).binds = s.binds := rfl
@[simp] theorem State.updChan_srv (s : State) (k : Nat) (f : Chan → Chan) : (s.updChan k f).srv = s.srv := rfl
@[simp] theorem State.updChan_flash (s : State) (k : Nat) (f : Chan → Chan) : (s.updChan k f).flash = s.flash := rfl
@[simp] theorem State.updChan_dpt (s : State) (k : Nat) (f : Chan → Chan) : (s.updChan k f).dpt = s.dpt := rfl
@[simp] theorem State.updChan_parts (s : State) (k : Nat) (f : Chan → Chan) : (s.updChan k f).parts = s.parts := rfl
@[simp] theorem State.updChan_cores (s : State) (k : Nat) (f : Chan → Chan) : (s.updChan k f).cores = s.cores := rfl
@[simp] theorem State.updChan_gangs (s : State) (k : Nat) (f : Chan → Chan) : (s.updChan k f).gangs = s.gangs := rfl
@[simp] theorem State.updChan_subs (s : State) (k : Nat) (f : Chan → Chan) : (s.updChan k f).subs = s.subs := rfl
@[simp] theorem State.updChan_trapStop (s : State) (k : Nat) (f : Chan → Chan) : (s.updChan k f).trapStop = s.trapStop := rfl
@[simp] theorem State.updChan_tim (s : State) (k : Nat) (f : Chan → Chan) : (s.updChan k f).tim = s.tim := rfl
@[simp] theorem State.updChan_fab (s : State) (k : Nat) (f : Chan → Chan) : (s.updChan k f).fab = s.fab := rfl
@[simp] theorem State.updChan_jobs (s : State) (k : Nat) (f : Chan → Chan) : (s.updChan k f).jobs = s.jobs := rfl
@[simp] theorem State.updChan_ckw (s : State) (k : Nat) (f : Chan → Chan) : (s.updChan k f).ckw = s.ckw := rfl
@[simp] theorem State.updChan_flt (s : State) (k : Nat) (f : Chan → Chan) : (s.updChan k f).flt = s.flt := rfl
@[simp] theorem State.updChan_pwr (s : State) (k : Nat) (f : Chan → Chan) : (s.updChan k f).pwr = s.pwr := rfl
@[simp] theorem State.updChan_engines (s : State) (k : Nat) (f : Chan → Chan) : (s.updChan k f).engines = s.engines := rfl
@[simp] theorem State.updChan_pending (s : State) (k : Nat) (f : Chan → Chan) : (s.updChan k f).pending = s.pending := rfl

/-! updRegion. -/

@[simp] theorem State.updRegion_clk (s : State) (k : Nat) (f : Region → Region) : (s.updRegion k f).clk = s.clk := rfl
@[simp] theorem State.updRegion_free (s : State) (k : Nat) (f : Region → Region) : (s.updRegion k f).free = s.free := rfl
@[simp] theorem State.updRegion_uid (s : State) (k : Nat) (f : Region → Region) : (s.updRegion k f).uid = s.uid := rfl
@[simp] theorem State.updRegion_rst (s : State) (k : Nat) (f : Region → Region) : (s.updRegion k f).rst = s.rst := rfl
@[simp] theorem State.updRegion_foreignWr (s : State) (k : Nat) (f : Region → Region) : (s.updRegion k f).foreignWr = s.foreignWr := rfl
@[simp] theorem State.updRegion_fns (s : State) (k : Nat) (f : Region → Region) : (s.updRegion k f).fns = s.fns := rfl
@[simp] theorem State.updRegion_ports (s : State) (k : Nat) (f : Region → Region) : (s.updRegion k f).ports = s.ports := rfl
@[simp] theorem State.updRegion_binds (s : State) (k : Nat) (f : Region → Region) : (s.updRegion k f).binds = s.binds := rfl
@[simp] theorem State.updRegion_srv (s : State) (k : Nat) (f : Region → Region) : (s.updRegion k f).srv = s.srv := rfl
@[simp] theorem State.updRegion_flash (s : State) (k : Nat) (f : Region → Region) : (s.updRegion k f).flash = s.flash := rfl
@[simp] theorem State.updRegion_dpt (s : State) (k : Nat) (f : Region → Region) : (s.updRegion k f).dpt = s.dpt := rfl
@[simp] theorem State.updRegion_parts (s : State) (k : Nat) (f : Region → Region) : (s.updRegion k f).parts = s.parts := rfl
@[simp] theorem State.updRegion_cores (s : State) (k : Nat) (f : Region → Region) : (s.updRegion k f).cores = s.cores := rfl
@[simp] theorem State.updRegion_gangs (s : State) (k : Nat) (f : Region → Region) : (s.updRegion k f).gangs = s.gangs := rfl
@[simp] theorem State.updRegion_subs (s : State) (k : Nat) (f : Region → Region) : (s.updRegion k f).subs = s.subs := rfl
@[simp] theorem State.updRegion_trapStop (s : State) (k : Nat) (f : Region → Region) : (s.updRegion k f).trapStop = s.trapStop := rfl
@[simp] theorem State.updRegion_tim (s : State) (k : Nat) (f : Region → Region) : (s.updRegion k f).tim = s.tim := rfl
@[simp] theorem State.updRegion_fab (s : State) (k : Nat) (f : Region → Region) : (s.updRegion k f).fab = s.fab := rfl
@[simp] theorem State.updRegion_jobs (s : State) (k : Nat) (f : Region → Region) : (s.updRegion k f).jobs = s.jobs := rfl
@[simp] theorem State.updRegion_ckw (s : State) (k : Nat) (f : Region → Region) : (s.updRegion k f).ckw = s.ckw := rfl
@[simp] theorem State.updRegion_flt (s : State) (k : Nat) (f : Region → Region) : (s.updRegion k f).flt = s.flt := rfl
@[simp] theorem State.updRegion_pwr (s : State) (k : Nat) (f : Region → Region) : (s.updRegion k f).pwr = s.pwr := rfl
@[simp] theorem State.updRegion_engines (s : State) (k : Nat) (f : Region → Region) : (s.updRegion k f).engines = s.engines := rfl
@[simp] theorem State.updRegion_pending (s : State) (k : Nat) (f : Region → Region) : (s.updRegion k f).pending = s.pending := rfl

/-! updFab. -/

@[simp] theorem State.updFab_clk (s : State) (f : Fab → Fab) : (s.updFab f).clk = s.clk := rfl
@[simp] theorem State.updFab_free (s : State) (f : Fab → Fab) : (s.updFab f).free = s.free := rfl
@[simp] theorem State.updFab_uid (s : State) (f : Fab → Fab) : (s.updFab f).uid = s.uid := rfl
@[simp] theorem State.updFab_rst (s : State) (f : Fab → Fab) : (s.updFab f).rst = s.rst := rfl
@[simp] theorem State.updFab_foreignWr (s : State) (f : Fab → Fab) : (s.updFab f).foreignWr = s.foreignWr := rfl
@[simp] theorem State.updFab_fns (s : State) (f : Fab → Fab) : (s.updFab f).fns = s.fns := rfl
@[simp] theorem State.updFab_ports (s : State) (f : Fab → Fab) : (s.updFab f).ports = s.ports := rfl
@[simp] theorem State.updFab_binds (s : State) (f : Fab → Fab) : (s.updFab f).binds = s.binds := rfl
@[simp] theorem State.updFab_srv (s : State) (f : Fab → Fab) : (s.updFab f).srv = s.srv := rfl
@[simp] theorem State.updFab_flash (s : State) (f : Fab → Fab) : (s.updFab f).flash = s.flash := rfl
@[simp] theorem State.updFab_dpt (s : State) (f : Fab → Fab) : (s.updFab f).dpt = s.dpt := rfl
@[simp] theorem State.updFab_parts (s : State) (f : Fab → Fab) : (s.updFab f).parts = s.parts := rfl
@[simp] theorem State.updFab_cores (s : State) (f : Fab → Fab) : (s.updFab f).cores = s.cores := rfl
@[simp] theorem State.updFab_gangs (s : State) (f : Fab → Fab) : (s.updFab f).gangs = s.gangs := rfl
@[simp] theorem State.updFab_subs (s : State) (f : Fab → Fab) : (s.updFab f).subs = s.subs := rfl
@[simp] theorem State.updFab_trapStop (s : State) (f : Fab → Fab) : (s.updFab f).trapStop = s.trapStop := rfl
@[simp] theorem State.updFab_mem (s : State) (f : Fab → Fab) : (s.updFab f).mem = s.mem := rfl
@[simp] theorem State.updFab_tim (s : State) (f : Fab → Fab) : (s.updFab f).tim = s.tim := rfl
@[simp] theorem State.updFab_jobs (s : State) (f : Fab → Fab) : (s.updFab f).jobs = s.jobs := rfl
@[simp] theorem State.updFab_ckw (s : State) (f : Fab → Fab) : (s.updFab f).ckw = s.ckw := rfl
@[simp] theorem State.updFab_flt (s : State) (f : Fab → Fab) : (s.updFab f).flt = s.flt := rfl
@[simp] theorem State.updFab_pwr (s : State) (f : Fab → Fab) : (s.updFab f).pwr = s.pwr := rfl
@[simp] theorem State.updFab_engines (s : State) (f : Fab → Fab) : (s.updFab f).engines = s.engines := rfl
@[simp] theorem State.updFab_pending (s : State) (f : Fab → Fab) : (s.updFab f).pending = s.pending := rfl

/-! updFabPort. -/

@[simp] theorem State.updFabPort_clk (s : State) (k : Nat) (f : FabPort → FabPort) : (s.updFabPort k f).clk = s.clk := rfl
@[simp] theorem State.updFabPort_free (s : State) (k : Nat) (f : FabPort → FabPort) : (s.updFabPort k f).free = s.free := rfl
@[simp] theorem State.updFabPort_uid (s : State) (k : Nat) (f : FabPort → FabPort) : (s.updFabPort k f).uid = s.uid := rfl
@[simp] theorem State.updFabPort_rst (s : State) (k : Nat) (f : FabPort → FabPort) : (s.updFabPort k f).rst = s.rst := rfl
@[simp] theorem State.updFabPort_foreignWr (s : State) (k : Nat) (f : FabPort → FabPort) : (s.updFabPort k f).foreignWr = s.foreignWr := rfl
@[simp] theorem State.updFabPort_fns (s : State) (k : Nat) (f : FabPort → FabPort) : (s.updFabPort k f).fns = s.fns := rfl
@[simp] theorem State.updFabPort_ports (s : State) (k : Nat) (f : FabPort → FabPort) : (s.updFabPort k f).ports = s.ports := rfl
@[simp] theorem State.updFabPort_binds (s : State) (k : Nat) (f : FabPort → FabPort) : (s.updFabPort k f).binds = s.binds := rfl
@[simp] theorem State.updFabPort_srv (s : State) (k : Nat) (f : FabPort → FabPort) : (s.updFabPort k f).srv = s.srv := rfl
@[simp] theorem State.updFabPort_flash (s : State) (k : Nat) (f : FabPort → FabPort) : (s.updFabPort k f).flash = s.flash := rfl
@[simp] theorem State.updFabPort_dpt (s : State) (k : Nat) (f : FabPort → FabPort) : (s.updFabPort k f).dpt = s.dpt := rfl
@[simp] theorem State.updFabPort_parts (s : State) (k : Nat) (f : FabPort → FabPort) : (s.updFabPort k f).parts = s.parts := rfl
@[simp] theorem State.updFabPort_cores (s : State) (k : Nat) (f : FabPort → FabPort) : (s.updFabPort k f).cores = s.cores := rfl
@[simp] theorem State.updFabPort_gangs (s : State) (k : Nat) (f : FabPort → FabPort) : (s.updFabPort k f).gangs = s.gangs := rfl
@[simp] theorem State.updFabPort_subs (s : State) (k : Nat) (f : FabPort → FabPort) : (s.updFabPort k f).subs = s.subs := rfl
@[simp] theorem State.updFabPort_trapStop (s : State) (k : Nat) (f : FabPort → FabPort) : (s.updFabPort k f).trapStop = s.trapStop := rfl
@[simp] theorem State.updFabPort_mem (s : State) (k : Nat) (f : FabPort → FabPort) : (s.updFabPort k f).mem = s.mem := rfl
@[simp] theorem State.updFabPort_tim (s : State) (k : Nat) (f : FabPort → FabPort) : (s.updFabPort k f).tim = s.tim := rfl
@[simp] theorem State.updFabPort_jobs (s : State) (k : Nat) (f : FabPort → FabPort) : (s.updFabPort k f).jobs = s.jobs := rfl
@[simp] theorem State.updFabPort_ckw (s : State) (k : Nat) (f : FabPort → FabPort) : (s.updFabPort k f).ckw = s.ckw := rfl
@[simp] theorem State.updFabPort_flt (s : State) (k : Nat) (f : FabPort → FabPort) : (s.updFabPort k f).flt = s.flt := rfl
@[simp] theorem State.updFabPort_pwr (s : State) (k : Nat) (f : FabPort → FabPort) : (s.updFabPort k f).pwr = s.pwr := rfl
@[simp] theorem State.updFabPort_engines (s : State) (k : Nat) (f : FabPort → FabPort) : (s.updFabPort k f).engines = s.engines := rfl
@[simp] theorem State.updFabPort_pending (s : State) (k : Nat) (f : FabPort → FabPort) : (s.updFabPort k f).pending = s.pending := rfl

/-! updJob. -/

@[simp] theorem State.updJob_clk (s : State) (k : Nat) (f : Job → Job) : (s.updJob k f).clk = s.clk := rfl
@[simp] theorem State.updJob_free (s : State) (k : Nat) (f : Job → Job) : (s.updJob k f).free = s.free := rfl
@[simp] theorem State.updJob_uid (s : State) (k : Nat) (f : Job → Job) : (s.updJob k f).uid = s.uid := rfl
@[simp] theorem State.updJob_rst (s : State) (k : Nat) (f : Job → Job) : (s.updJob k f).rst = s.rst := rfl
@[simp] theorem State.updJob_foreignWr (s : State) (k : Nat) (f : Job → Job) : (s.updJob k f).foreignWr = s.foreignWr := rfl
@[simp] theorem State.updJob_fns (s : State) (k : Nat) (f : Job → Job) : (s.updJob k f).fns = s.fns := rfl
@[simp] theorem State.updJob_ports (s : State) (k : Nat) (f : Job → Job) : (s.updJob k f).ports = s.ports := rfl
@[simp] theorem State.updJob_binds (s : State) (k : Nat) (f : Job → Job) : (s.updJob k f).binds = s.binds := rfl
@[simp] theorem State.updJob_srv (s : State) (k : Nat) (f : Job → Job) : (s.updJob k f).srv = s.srv := rfl
@[simp] theorem State.updJob_flash (s : State) (k : Nat) (f : Job → Job) : (s.updJob k f).flash = s.flash := rfl
@[simp] theorem State.updJob_dpt (s : State) (k : Nat) (f : Job → Job) : (s.updJob k f).dpt = s.dpt := rfl
@[simp] theorem State.updJob_parts (s : State) (k : Nat) (f : Job → Job) : (s.updJob k f).parts = s.parts := rfl
@[simp] theorem State.updJob_cores (s : State) (k : Nat) (f : Job → Job) : (s.updJob k f).cores = s.cores := rfl
@[simp] theorem State.updJob_gangs (s : State) (k : Nat) (f : Job → Job) : (s.updJob k f).gangs = s.gangs := rfl
@[simp] theorem State.updJob_subs (s : State) (k : Nat) (f : Job → Job) : (s.updJob k f).subs = s.subs := rfl
@[simp] theorem State.updJob_trapStop (s : State) (k : Nat) (f : Job → Job) : (s.updJob k f).trapStop = s.trapStop := rfl
@[simp] theorem State.updJob_mem (s : State) (k : Nat) (f : Job → Job) : (s.updJob k f).mem = s.mem := rfl
@[simp] theorem State.updJob_tim (s : State) (k : Nat) (f : Job → Job) : (s.updJob k f).tim = s.tim := rfl
@[simp] theorem State.updJob_fab (s : State) (k : Nat) (f : Job → Job) : (s.updJob k f).fab = s.fab := rfl
@[simp] theorem State.updJob_ckw (s : State) (k : Nat) (f : Job → Job) : (s.updJob k f).ckw = s.ckw := rfl
@[simp] theorem State.updJob_flt (s : State) (k : Nat) (f : Job → Job) : (s.updJob k f).flt = s.flt := rfl
@[simp] theorem State.updJob_pwr (s : State) (k : Nat) (f : Job → Job) : (s.updJob k f).pwr = s.pwr := rfl
@[simp] theorem State.updJob_engines (s : State) (k : Nat) (f : Job → Job) : (s.updJob k f).engines = s.engines := rfl
@[simp] theorem State.updJob_pending (s : State) (k : Nat) (f : Job → Job) : (s.updJob k f).pending = s.pending := rfl

/-! updEngine. -/

@[simp] theorem State.updEngine_clk (s : State) (k : Nat) (f : Engine → Engine) : (s.updEngine k f).clk = s.clk := rfl
@[simp] theorem State.updEngine_free (s : State) (k : Nat) (f : Engine → Engine) : (s.updEngine k f).free = s.free := rfl
@[simp] theorem State.updEngine_uid (s : State) (k : Nat) (f : Engine → Engine) : (s.updEngine k f).uid = s.uid := rfl
@[simp] theorem State.updEngine_rst (s : State) (k : Nat) (f : Engine → Engine) : (s.updEngine k f).rst = s.rst := rfl
@[simp] theorem State.updEngine_foreignWr (s : State) (k : Nat) (f : Engine → Engine) : (s.updEngine k f).foreignWr = s.foreignWr := rfl
@[simp] theorem State.updEngine_fns (s : State) (k : Nat) (f : Engine → Engine) : (s.updEngine k f).fns = s.fns := rfl
@[simp] theorem State.updEngine_ports (s : State) (k : Nat) (f : Engine → Engine) : (s.updEngine k f).ports = s.ports := rfl
@[simp] theorem State.updEngine_binds (s : State) (k : Nat) (f : Engine → Engine) : (s.updEngine k f).binds = s.binds := rfl
@[simp] theorem State.updEngine_srv (s : State) (k : Nat) (f : Engine → Engine) : (s.updEngine k f).srv = s.srv := rfl
@[simp] theorem State.updEngine_flash (s : State) (k : Nat) (f : Engine → Engine) : (s.updEngine k f).flash = s.flash := rfl
@[simp] theorem State.updEngine_dpt (s : State) (k : Nat) (f : Engine → Engine) : (s.updEngine k f).dpt = s.dpt := rfl
@[simp] theorem State.updEngine_parts (s : State) (k : Nat) (f : Engine → Engine) : (s.updEngine k f).parts = s.parts := rfl
@[simp] theorem State.updEngine_cores (s : State) (k : Nat) (f : Engine → Engine) : (s.updEngine k f).cores = s.cores := rfl
@[simp] theorem State.updEngine_gangs (s : State) (k : Nat) (f : Engine → Engine) : (s.updEngine k f).gangs = s.gangs := rfl
@[simp] theorem State.updEngine_subs (s : State) (k : Nat) (f : Engine → Engine) : (s.updEngine k f).subs = s.subs := rfl
@[simp] theorem State.updEngine_trapStop (s : State) (k : Nat) (f : Engine → Engine) : (s.updEngine k f).trapStop = s.trapStop := rfl
@[simp] theorem State.updEngine_mem (s : State) (k : Nat) (f : Engine → Engine) : (s.updEngine k f).mem = s.mem := rfl
@[simp] theorem State.updEngine_tim (s : State) (k : Nat) (f : Engine → Engine) : (s.updEngine k f).tim = s.tim := rfl
@[simp] theorem State.updEngine_fab (s : State) (k : Nat) (f : Engine → Engine) : (s.updEngine k f).fab = s.fab := rfl
@[simp] theorem State.updEngine_jobs (s : State) (k : Nat) (f : Engine → Engine) : (s.updEngine k f).jobs = s.jobs := rfl
@[simp] theorem State.updEngine_ckw (s : State) (k : Nat) (f : Engine → Engine) : (s.updEngine k f).ckw = s.ckw := rfl
@[simp] theorem State.updEngine_flt (s : State) (k : Nat) (f : Engine → Engine) : (s.updEngine k f).flt = s.flt := rfl
@[simp] theorem State.updEngine_pwr (s : State) (k : Nat) (f : Engine → Engine) : (s.updEngine k f).pwr = s.pwr := rfl
@[simp] theorem State.updEngine_pending (s : State) (k : Nat) (f : Engine → Engine) : (s.updEngine k f).pending = s.pending := rfl

/-! charge. -/

@[simp] theorem State.charge_clk (s : State) (p t k n : Nat) : (s.charge p t k n).clk = s.clk := rfl
@[simp] theorem State.charge_free (s : State) (p t k n : Nat) : (s.charge p t k n).free = s.free := rfl
@[simp] theorem State.charge_uid (s : State) (p t k n : Nat) : (s.charge p t k n).uid = s.uid := rfl
@[simp] theorem State.charge_rst (s : State) (p t k n : Nat) : (s.charge p t k n).rst = s.rst := rfl
@[simp] theorem State.charge_foreignWr (s : State) (p t k n : Nat) : (s.charge p t k n).foreignWr = s.foreignWr := rfl
@[simp] theorem State.charge_fns (s : State) (p t k n : Nat) : (s.charge p t k n).fns = s.fns := rfl
@[simp] theorem State.charge_ports (s : State) (p t k n : Nat) : (s.charge p t k n).ports = s.ports := rfl
@[simp] theorem State.charge_binds (s : State) (p t k n : Nat) : (s.charge p t k n).binds = s.binds := rfl
@[simp] theorem State.charge_srv (s : State) (p t k n : Nat) : (s.charge p t k n).srv = s.srv := rfl
@[simp] theorem State.charge_flash (s : State) (p t k n : Nat) : (s.charge p t k n).flash = s.flash := rfl
@[simp] theorem State.charge_dpt (s : State) (p t k n : Nat) : (s.charge p t k n).dpt = s.dpt := rfl
@[simp] theorem State.charge_parts (s : State) (p t k n : Nat) : (s.charge p t k n).parts = s.parts := rfl
@[simp] theorem State.charge_cores (s : State) (p t k n : Nat) : (s.charge p t k n).cores = s.cores := rfl
@[simp] theorem State.charge_gangs (s : State) (p t k n : Nat) : (s.charge p t k n).gangs = s.gangs := rfl
@[simp] theorem State.charge_subs (s : State) (p t k n : Nat) : (s.charge p t k n).subs = s.subs := rfl
@[simp] theorem State.charge_trapStop (s : State) (p t k n : Nat) : (s.charge p t k n).trapStop = s.trapStop := rfl
@[simp] theorem State.charge_mem (s : State) (p t k n : Nat) : (s.charge p t k n).mem = s.mem := rfl
@[simp] theorem State.charge_tim (s : State) (p t k n : Nat) : (s.charge p t k n).tim = s.tim := rfl
@[simp] theorem State.charge_fab (s : State) (p t k n : Nat) : (s.charge p t k n).fab = s.fab := rfl
@[simp] theorem State.charge_jobs (s : State) (p t k n : Nat) : (s.charge p t k n).jobs = s.jobs := rfl
@[simp] theorem State.charge_flt (s : State) (p t k n : Nat) : (s.charge p t k n).flt = s.flt := rfl
@[simp] theorem State.charge_pwr (s : State) (p t k n : Nat) : (s.charge p t k n).pwr = s.pwr := rfl
@[simp] theorem State.charge_engines (s : State) (p t k n : Nat) : (s.charge p t k n).engines = s.engines := rfl
@[simp] theorem State.charge_pending (s : State) (p t k n : Nat) : (s.charge p t k n).pending = s.pending := rfl

/-! chargeIdle. -/

@[simp] theorem State.chargeIdle_clk (s : State) (k n : Nat) : (s.chargeIdle k n).clk = s.clk := rfl
@[simp] theorem State.chargeIdle_free (s : State) (k n : Nat) : (s.chargeIdle k n).free = s.free := rfl
@[simp] theorem State.chargeIdle_uid (s : State) (k n : Nat) : (s.chargeIdle k n).uid = s.uid := rfl
@[simp] theorem State.chargeIdle_rst (s : State) (k n : Nat) : (s.chargeIdle k n).rst = s.rst := rfl
@[simp] theorem State.chargeIdle_foreignWr (s : State) (k n : Nat) : (s.chargeIdle k n).foreignWr = s.foreignWr := rfl
@[simp] theorem State.chargeIdle_fns (s : State) (k n : Nat) : (s.chargeIdle k n).fns = s.fns := rfl
@[simp] theorem State.chargeIdle_ports (s : State) (k n : Nat) : (s.chargeIdle k n).ports = s.ports := rfl
@[simp] theorem State.chargeIdle_binds (s : State) (k n : Nat) : (s.chargeIdle k n).binds = s.binds := rfl
@[simp] theorem State.chargeIdle_srv (s : State) (k n : Nat) : (s.chargeIdle k n).srv = s.srv := rfl
@[simp] theorem State.chargeIdle_flash (s : State) (k n : Nat) : (s.chargeIdle k n).flash = s.flash := rfl
@[simp] theorem State.chargeIdle_dpt (s : State) (k n : Nat) : (s.chargeIdle k n).dpt = s.dpt := rfl
@[simp] theorem State.chargeIdle_parts (s : State) (k n : Nat) : (s.chargeIdle k n).parts = s.parts := rfl
@[simp] theorem State.chargeIdle_cores (s : State) (k n : Nat) : (s.chargeIdle k n).cores = s.cores := rfl
@[simp] theorem State.chargeIdle_gangs (s : State) (k n : Nat) : (s.chargeIdle k n).gangs = s.gangs := rfl
@[simp] theorem State.chargeIdle_subs (s : State) (k n : Nat) : (s.chargeIdle k n).subs = s.subs := rfl
@[simp] theorem State.chargeIdle_trapStop (s : State) (k n : Nat) : (s.chargeIdle k n).trapStop = s.trapStop := rfl
@[simp] theorem State.chargeIdle_mem (s : State) (k n : Nat) : (s.chargeIdle k n).mem = s.mem := rfl
@[simp] theorem State.chargeIdle_tim (s : State) (k n : Nat) : (s.chargeIdle k n).tim = s.tim := rfl
@[simp] theorem State.chargeIdle_fab (s : State) (k n : Nat) : (s.chargeIdle k n).fab = s.fab := rfl
@[simp] theorem State.chargeIdle_jobs (s : State) (k n : Nat) : (s.chargeIdle k n).jobs = s.jobs := rfl
@[simp] theorem State.chargeIdle_flt (s : State) (k n : Nat) : (s.chargeIdle k n).flt = s.flt := rfl
@[simp] theorem State.chargeIdle_pwr (s : State) (k n : Nat) : (s.chargeIdle k n).pwr = s.pwr := rfl
@[simp] theorem State.chargeIdle_engines (s : State) (k n : Nat) : (s.chargeIdle k n).engines = s.engines := rfl
@[simp] theorem State.chargeIdle_pending (s : State) (k n : Nat) : (s.chargeIdle k n).pending = s.pending := rfl

/-! Units read after an update. -/

theorem State.fn_updFn (s : State) (k i : Nat) (f : Fn → Fn) : (s.updFn k f).fn i = if i = k then f (s.fn k) else s.fn i :=
  Tab.get_upd ..
@[simp] theorem State.fn_updFn_same (s : State) (k : Nat) (f : Fn → Fn) : (s.updFn k f).fn k = f (s.fn k) :=
  Tab.get_upd_same ..
theorem State.port_updPort (s : State) (k i : Nat) (f : HostPort → HostPort) : (s.updPort k f).port i = if i = k then f (s.port k) else s.port i :=
  Tab.get_upd ..
@[simp] theorem State.port_updPort_same (s : State) (k : Nat) (f : HostPort → HostPort) : (s.updPort k f).port k = f (s.port k) :=
  Tab.get_upd_same ..
theorem State.part_updPart (s : State) (k i : Nat) (f : Part → Part) : (s.updPart k f).part i = if i = k then f (s.part k) else s.part i :=
  Tab.get_upd ..
@[simp] theorem State.part_updPart_same (s : State) (k : Nat) (f : Part → Part) : (s.updPart k f).part k = f (s.part k) :=
  Tab.get_upd_same ..
theorem State.core_updCore (s : State) (k i : Nat) (f : Core → Core) : (s.updCore k f).core i = if i = k then f (s.core k) else s.core i :=
  Tab.get_upd ..
@[simp] theorem State.core_updCore_same (s : State) (k : Nat) (f : Core → Core) : (s.updCore k f).core k = f (s.core k) :=
  Tab.get_upd_same ..
theorem State.gang_updGang (s : State) (k i : Nat) (f : Gang → Gang) : (s.updGang k f).gang i = if i = k then f (s.gang k) else s.gang i :=
  Tab.get_upd ..
@[simp] theorem State.gang_updGang_same (s : State) (k : Nat) (f : Gang → Gang) : (s.updGang k f).gang k = f (s.gang k) :=
  Tab.get_upd_same ..
theorem State.job_updJob (s : State) (k i : Nat) (f : Job → Job) : (s.updJob k f).job i = if i = k then f (s.job k) else s.job i :=
  Tab.get_upd ..
@[simp] theorem State.job_updJob_same (s : State) (k : Nat) (f : Job → Job) : (s.updJob k f).job k = f (s.job k) :=
  Tab.get_upd_same ..
theorem State.engine_updEngine (s : State) (k i : Nat) (f : Engine → Engine) : (s.updEngine k f).engine i = if i = k then f (s.engine k) else s.engine i :=
  Tab.get_upd ..
@[simp] theorem State.engine_updEngine_same (s : State) (k : Nat) (f : Engine → Engine) : (s.updEngine k f).engine k = f (s.engine k) :=
  Tab.get_upd_same ..
theorem State.chan_updChan (s : State) (k i : Nat) (f : Chan → Chan) : (s.updChan k f).chan i = if i = k then f (s.chan k) else s.chan i :=
  Tab.get_upd ..
@[simp] theorem State.chan_updChan_same (s : State) (k : Nat) (f : Chan → Chan) : (s.updChan k f).chan k = f (s.chan k) :=
  Tab.get_upd_same ..
theorem State.region_updRegion (s : State) (k i : Nat) (f : Region → Region) : (s.updRegion k f).region i = if i = k then f (s.region k) else s.region i :=
  Tab.get_upd ..
@[simp] theorem State.region_updRegion_same (s : State) (k : Nat) (f : Region → Region) : (s.updRegion k f).region k = f (s.region k) :=
  Tab.get_upd_same ..
theorem State.fabPort_updFabPort (s : State) (k i : Nat) (f : FabPort → FabPort) : (s.updFabPort k f).fabPort i = if i = k then f (s.fabPort k) else s.fabPort i :=
  Tab.get_upd ..
@[simp] theorem State.fabPort_updFabPort_same (s : State) (k : Nat) (f : FabPort → FabPort) : (s.updFabPort k f).fabPort k = f (s.fabPort k) :=
  Tab.get_upd_same ..
@[simp] theorem State.sub_setSub (s : State) (k : Nat) (l : List StEntry) : (s.setSub k l).sub k = l := Tab.get_set_same ..
@[simp] theorem State.part_updPlc (s : State) (p : Nat) (f : Placement → Placement) :
    ((s.updPlc p f).part p).plc = f (s.part p).plc := by simp [State.updPlc]
@[simp] theorem State.ring_updRing_same (s : State) (p k : Nat) (f : Ring → Ring) : (s.updRing p k f).ring p k = f (s.ring p k) := by
  simp [State.updRing, State.ring]
@[simp] theorem State.cmd_updCmd_same (s : State) (p k : Nat) (f : Cmd → Cmd) : (s.updCmd p k f).cmd p k = f (s.cmd p k) := by
  simp [State.updCmd, State.cmd]
@[simp] theorem State.seam_updSeam_same (s : State) (p k : Nat) (f : Seam → Seam) : (s.updSeam p k f).seam p k = f (s.seam p k) := by
  simp [State.updSeam, State.seam]
@[simp] theorem State.conv_updConv_same (s : State) (p k : Nat) (f : Conveyor → Conveyor) : (s.updConv p k f).conv p k = f (s.conv p k) := by
  simp [State.updConv, State.conv]
@[simp] theorem State.tensor_updTensor_same (s : State) (p k : Nat) (f : Tensor → Tensor) : (s.updTensor p k f).tensor p k = f (s.tensor p k) := by
  simp [State.updTensor, State.tensor]
@[simp] theorem State.stg_updStage_same (s : State) (p k : Nat) (f : Stage → Stage) : (s.updStage p k f).stg p k = f (s.stg p k) := by
  simp [State.updStage, State.stg]

/-! Units that an update does not touch. -/

@[simp] theorem State.port_of_updFn (s : State) (k : Nat) (f : Fn → Fn) (i : Nat) : (s.updFn k f).port i = s.port i := rfl
@[simp] theorem State.part_of_updFn (s : State) (k : Nat) (f : Fn → Fn) (i : Nat) : (s.updFn k f).part i = s.part i := rfl
@[simp] theorem State.core_of_updFn (s : State) (k : Nat) (f : Fn → Fn) (i : Nat) : (s.updFn k f).core i = s.core i := rfl
@[simp] theorem State.gang_of_updFn (s : State) (k : Nat) (f : Fn → Fn) (i : Nat) : (s.updFn k f).gang i = s.gang i := rfl
@[simp] theorem State.sub_of_updFn (s : State) (k : Nat) (f : Fn → Fn) (i : Nat) : (s.updFn k f).sub i = s.sub i := rfl
@[simp] theorem State.job_of_updFn (s : State) (k : Nat) (f : Fn → Fn) (i : Nat) : (s.updFn k f).job i = s.job i := rfl
@[simp] theorem State.engine_of_updFn (s : State) (k : Nat) (f : Fn → Fn) (i : Nat) : (s.updFn k f).engine i = s.engine i := rfl
@[simp] theorem State.chan_of_updFn (s : State) (k : Nat) (f : Fn → Fn) (i : Nat) : (s.updFn k f).chan i = s.chan i := rfl
@[simp] theorem State.region_of_updFn (s : State) (k : Nat) (f : Fn → Fn) (i : Nat) : (s.updFn k f).region i = s.region i := rfl
@[simp] theorem State.fabPort_of_updFn (s : State) (k : Nat) (f : Fn → Fn) (i : Nat) : (s.updFn k f).fabPort i = s.fabPort i := rfl
@[simp] theorem State.fn_of_updPort (s : State) (k : Nat) (f : HostPort → HostPort) (i : Nat) : (s.updPort k f).fn i = s.fn i := rfl
@[simp] theorem State.part_of_updPort (s : State) (k : Nat) (f : HostPort → HostPort) (i : Nat) : (s.updPort k f).part i = s.part i := rfl
@[simp] theorem State.core_of_updPort (s : State) (k : Nat) (f : HostPort → HostPort) (i : Nat) : (s.updPort k f).core i = s.core i := rfl
@[simp] theorem State.gang_of_updPort (s : State) (k : Nat) (f : HostPort → HostPort) (i : Nat) : (s.updPort k f).gang i = s.gang i := rfl
@[simp] theorem State.sub_of_updPort (s : State) (k : Nat) (f : HostPort → HostPort) (i : Nat) : (s.updPort k f).sub i = s.sub i := rfl
@[simp] theorem State.job_of_updPort (s : State) (k : Nat) (f : HostPort → HostPort) (i : Nat) : (s.updPort k f).job i = s.job i := rfl
@[simp] theorem State.engine_of_updPort (s : State) (k : Nat) (f : HostPort → HostPort) (i : Nat) : (s.updPort k f).engine i = s.engine i := rfl
@[simp] theorem State.chan_of_updPort (s : State) (k : Nat) (f : HostPort → HostPort) (i : Nat) : (s.updPort k f).chan i = s.chan i := rfl
@[simp] theorem State.region_of_updPort (s : State) (k : Nat) (f : HostPort → HostPort) (i : Nat) : (s.updPort k f).region i = s.region i := rfl
@[simp] theorem State.fabPort_of_updPort (s : State) (k : Nat) (f : HostPort → HostPort) (i : Nat) : (s.updPort k f).fabPort i = s.fabPort i := rfl
@[simp] theorem State.fn_of_updPart (s : State) (k : Nat) (f : Part → Part) (i : Nat) : (s.updPart k f).fn i = s.fn i := rfl
@[simp] theorem State.port_of_updPart (s : State) (k : Nat) (f : Part → Part) (i : Nat) : (s.updPart k f).port i = s.port i := rfl
@[simp] theorem State.core_of_updPart (s : State) (k : Nat) (f : Part → Part) (i : Nat) : (s.updPart k f).core i = s.core i := rfl
@[simp] theorem State.gang_of_updPart (s : State) (k : Nat) (f : Part → Part) (i : Nat) : (s.updPart k f).gang i = s.gang i := rfl
@[simp] theorem State.sub_of_updPart (s : State) (k : Nat) (f : Part → Part) (i : Nat) : (s.updPart k f).sub i = s.sub i := rfl
@[simp] theorem State.job_of_updPart (s : State) (k : Nat) (f : Part → Part) (i : Nat) : (s.updPart k f).job i = s.job i := rfl
@[simp] theorem State.engine_of_updPart (s : State) (k : Nat) (f : Part → Part) (i : Nat) : (s.updPart k f).engine i = s.engine i := rfl
@[simp] theorem State.chan_of_updPart (s : State) (k : Nat) (f : Part → Part) (i : Nat) : (s.updPart k f).chan i = s.chan i := rfl
@[simp] theorem State.region_of_updPart (s : State) (k : Nat) (f : Part → Part) (i : Nat) : (s.updPart k f).region i = s.region i := rfl
@[simp] theorem State.fabPort_of_updPart (s : State) (k : Nat) (f : Part → Part) (i : Nat) : (s.updPart k f).fabPort i = s.fabPort i := rfl
@[simp] theorem State.fn_of_updRing (s : State) (p k : Nat) (f : Ring → Ring) (i : Nat) : (s.updRing p k f).fn i = s.fn i := rfl
@[simp] theorem State.port_of_updRing (s : State) (p k : Nat) (f : Ring → Ring) (i : Nat) : (s.updRing p k f).port i = s.port i := rfl
@[simp] theorem State.core_of_updRing (s : State) (p k : Nat) (f : Ring → Ring) (i : Nat) : (s.updRing p k f).core i = s.core i := rfl
@[simp] theorem State.gang_of_updRing (s : State) (p k : Nat) (f : Ring → Ring) (i : Nat) : (s.updRing p k f).gang i = s.gang i := rfl
@[simp] theorem State.sub_of_updRing (s : State) (p k : Nat) (f : Ring → Ring) (i : Nat) : (s.updRing p k f).sub i = s.sub i := rfl
@[simp] theorem State.job_of_updRing (s : State) (p k : Nat) (f : Ring → Ring) (i : Nat) : (s.updRing p k f).job i = s.job i := rfl
@[simp] theorem State.engine_of_updRing (s : State) (p k : Nat) (f : Ring → Ring) (i : Nat) : (s.updRing p k f).engine i = s.engine i := rfl
@[simp] theorem State.chan_of_updRing (s : State) (p k : Nat) (f : Ring → Ring) (i : Nat) : (s.updRing p k f).chan i = s.chan i := rfl
@[simp] theorem State.region_of_updRing (s : State) (p k : Nat) (f : Ring → Ring) (i : Nat) : (s.updRing p k f).region i = s.region i := rfl
@[simp] theorem State.fabPort_of_updRing (s : State) (p k : Nat) (f : Ring → Ring) (i : Nat) : (s.updRing p k f).fabPort i = s.fabPort i := rfl
@[simp] theorem State.fn_of_updCmd (s : State) (p k : Nat) (f : Cmd → Cmd) (i : Nat) : (s.updCmd p k f).fn i = s.fn i := rfl
@[simp] theorem State.port_of_updCmd (s : State) (p k : Nat) (f : Cmd → Cmd) (i : Nat) : (s.updCmd p k f).port i = s.port i := rfl
@[simp] theorem State.core_of_updCmd (s : State) (p k : Nat) (f : Cmd → Cmd) (i : Nat) : (s.updCmd p k f).core i = s.core i := rfl
@[simp] theorem State.gang_of_updCmd (s : State) (p k : Nat) (f : Cmd → Cmd) (i : Nat) : (s.updCmd p k f).gang i = s.gang i := rfl
@[simp] theorem State.sub_of_updCmd (s : State) (p k : Nat) (f : Cmd → Cmd) (i : Nat) : (s.updCmd p k f).sub i = s.sub i := rfl
@[simp] theorem State.job_of_updCmd (s : State) (p k : Nat) (f : Cmd → Cmd) (i : Nat) : (s.updCmd p k f).job i = s.job i := rfl
@[simp] theorem State.engine_of_updCmd (s : State) (p k : Nat) (f : Cmd → Cmd) (i : Nat) : (s.updCmd p k f).engine i = s.engine i := rfl
@[simp] theorem State.chan_of_updCmd (s : State) (p k : Nat) (f : Cmd → Cmd) (i : Nat) : (s.updCmd p k f).chan i = s.chan i := rfl
@[simp] theorem State.region_of_updCmd (s : State) (p k : Nat) (f : Cmd → Cmd) (i : Nat) : (s.updCmd p k f).region i = s.region i := rfl
@[simp] theorem State.fabPort_of_updCmd (s : State) (p k : Nat) (f : Cmd → Cmd) (i : Nat) : (s.updCmd p k f).fabPort i = s.fabPort i := rfl
@[simp] theorem State.fn_of_updPlc (s : State) (p : Nat) (f : Placement → Placement) (i : Nat) : (s.updPlc p f).fn i = s.fn i := rfl
@[simp] theorem State.port_of_updPlc (s : State) (p : Nat) (f : Placement → Placement) (i : Nat) : (s.updPlc p f).port i = s.port i := rfl
@[simp] theorem State.core_of_updPlc (s : State) (p : Nat) (f : Placement → Placement) (i : Nat) : (s.updPlc p f).core i = s.core i := rfl
@[simp] theorem State.gang_of_updPlc (s : State) (p : Nat) (f : Placement → Placement) (i : Nat) : (s.updPlc p f).gang i = s.gang i := rfl
@[simp] theorem State.sub_of_updPlc (s : State) (p : Nat) (f : Placement → Placement) (i : Nat) : (s.updPlc p f).sub i = s.sub i := rfl
@[simp] theorem State.job_of_updPlc (s : State) (p : Nat) (f : Placement → Placement) (i : Nat) : (s.updPlc p f).job i = s.job i := rfl
@[simp] theorem State.engine_of_updPlc (s : State) (p : Nat) (f : Placement → Placement) (i : Nat) : (s.updPlc p f).engine i = s.engine i := rfl
@[simp] theorem State.chan_of_updPlc (s : State) (p : Nat) (f : Placement → Placement) (i : Nat) : (s.updPlc p f).chan i = s.chan i := rfl
@[simp] theorem State.region_of_updPlc (s : State) (p : Nat) (f : Placement → Placement) (i : Nat) : (s.updPlc p f).region i = s.region i := rfl
@[simp] theorem State.fabPort_of_updPlc (s : State) (p : Nat) (f : Placement → Placement) (i : Nat) : (s.updPlc p f).fabPort i = s.fabPort i := rfl
@[simp] theorem State.fn_of_updSeam (s : State) (p k : Nat) (f : Seam → Seam) (i : Nat) : (s.updSeam p k f).fn i = s.fn i := rfl
@[simp] theorem State.port_of_updSeam (s : State) (p k : Nat) (f : Seam → Seam) (i : Nat) : (s.updSeam p k f).port i = s.port i := rfl
@[simp] theorem State.core_of_updSeam (s : State) (p k : Nat) (f : Seam → Seam) (i : Nat) : (s.updSeam p k f).core i = s.core i := rfl
@[simp] theorem State.gang_of_updSeam (s : State) (p k : Nat) (f : Seam → Seam) (i : Nat) : (s.updSeam p k f).gang i = s.gang i := rfl
@[simp] theorem State.sub_of_updSeam (s : State) (p k : Nat) (f : Seam → Seam) (i : Nat) : (s.updSeam p k f).sub i = s.sub i := rfl
@[simp] theorem State.job_of_updSeam (s : State) (p k : Nat) (f : Seam → Seam) (i : Nat) : (s.updSeam p k f).job i = s.job i := rfl
@[simp] theorem State.engine_of_updSeam (s : State) (p k : Nat) (f : Seam → Seam) (i : Nat) : (s.updSeam p k f).engine i = s.engine i := rfl
@[simp] theorem State.chan_of_updSeam (s : State) (p k : Nat) (f : Seam → Seam) (i : Nat) : (s.updSeam p k f).chan i = s.chan i := rfl
@[simp] theorem State.region_of_updSeam (s : State) (p k : Nat) (f : Seam → Seam) (i : Nat) : (s.updSeam p k f).region i = s.region i := rfl
@[simp] theorem State.fabPort_of_updSeam (s : State) (p k : Nat) (f : Seam → Seam) (i : Nat) : (s.updSeam p k f).fabPort i = s.fabPort i := rfl
@[simp] theorem State.fn_of_updConv (s : State) (p k : Nat) (f : Conveyor → Conveyor) (i : Nat) : (s.updConv p k f).fn i = s.fn i := rfl
@[simp] theorem State.port_of_updConv (s : State) (p k : Nat) (f : Conveyor → Conveyor) (i : Nat) : (s.updConv p k f).port i = s.port i := rfl
@[simp] theorem State.core_of_updConv (s : State) (p k : Nat) (f : Conveyor → Conveyor) (i : Nat) : (s.updConv p k f).core i = s.core i := rfl
@[simp] theorem State.gang_of_updConv (s : State) (p k : Nat) (f : Conveyor → Conveyor) (i : Nat) : (s.updConv p k f).gang i = s.gang i := rfl
@[simp] theorem State.sub_of_updConv (s : State) (p k : Nat) (f : Conveyor → Conveyor) (i : Nat) : (s.updConv p k f).sub i = s.sub i := rfl
@[simp] theorem State.job_of_updConv (s : State) (p k : Nat) (f : Conveyor → Conveyor) (i : Nat) : (s.updConv p k f).job i = s.job i := rfl
@[simp] theorem State.engine_of_updConv (s : State) (p k : Nat) (f : Conveyor → Conveyor) (i : Nat) : (s.updConv p k f).engine i = s.engine i := rfl
@[simp] theorem State.chan_of_updConv (s : State) (p k : Nat) (f : Conveyor → Conveyor) (i : Nat) : (s.updConv p k f).chan i = s.chan i := rfl
@[simp] theorem State.region_of_updConv (s : State) (p k : Nat) (f : Conveyor → Conveyor) (i : Nat) : (s.updConv p k f).region i = s.region i := rfl
@[simp] theorem State.fabPort_of_updConv (s : State) (p k : Nat) (f : Conveyor → Conveyor) (i : Nat) : (s.updConv p k f).fabPort i = s.fabPort i := rfl
@[simp] theorem State.fn_of_updTensor (s : State) (p k : Nat) (f : Tensor → Tensor) (i : Nat) : (s.updTensor p k f).fn i = s.fn i := rfl
@[simp] theorem State.port_of_updTensor (s : State) (p k : Nat) (f : Tensor → Tensor) (i : Nat) : (s.updTensor p k f).port i = s.port i := rfl
@[simp] theorem State.core_of_updTensor (s : State) (p k : Nat) (f : Tensor → Tensor) (i : Nat) : (s.updTensor p k f).core i = s.core i := rfl
@[simp] theorem State.gang_of_updTensor (s : State) (p k : Nat) (f : Tensor → Tensor) (i : Nat) : (s.updTensor p k f).gang i = s.gang i := rfl
@[simp] theorem State.sub_of_updTensor (s : State) (p k : Nat) (f : Tensor → Tensor) (i : Nat) : (s.updTensor p k f).sub i = s.sub i := rfl
@[simp] theorem State.job_of_updTensor (s : State) (p k : Nat) (f : Tensor → Tensor) (i : Nat) : (s.updTensor p k f).job i = s.job i := rfl
@[simp] theorem State.engine_of_updTensor (s : State) (p k : Nat) (f : Tensor → Tensor) (i : Nat) : (s.updTensor p k f).engine i = s.engine i := rfl
@[simp] theorem State.chan_of_updTensor (s : State) (p k : Nat) (f : Tensor → Tensor) (i : Nat) : (s.updTensor p k f).chan i = s.chan i := rfl
@[simp] theorem State.region_of_updTensor (s : State) (p k : Nat) (f : Tensor → Tensor) (i : Nat) : (s.updTensor p k f).region i = s.region i := rfl
@[simp] theorem State.fabPort_of_updTensor (s : State) (p k : Nat) (f : Tensor → Tensor) (i : Nat) : (s.updTensor p k f).fabPort i = s.fabPort i := rfl
@[simp] theorem State.fn_of_updStage (s : State) (p k : Nat) (f : Stage → Stage) (i : Nat) : (s.updStage p k f).fn i = s.fn i := rfl
@[simp] theorem State.port_of_updStage (s : State) (p k : Nat) (f : Stage → Stage) (i : Nat) : (s.updStage p k f).port i = s.port i := rfl
@[simp] theorem State.core_of_updStage (s : State) (p k : Nat) (f : Stage → Stage) (i : Nat) : (s.updStage p k f).core i = s.core i := rfl
@[simp] theorem State.gang_of_updStage (s : State) (p k : Nat) (f : Stage → Stage) (i : Nat) : (s.updStage p k f).gang i = s.gang i := rfl
@[simp] theorem State.sub_of_updStage (s : State) (p k : Nat) (f : Stage → Stage) (i : Nat) : (s.updStage p k f).sub i = s.sub i := rfl
@[simp] theorem State.job_of_updStage (s : State) (p k : Nat) (f : Stage → Stage) (i : Nat) : (s.updStage p k f).job i = s.job i := rfl
@[simp] theorem State.engine_of_updStage (s : State) (p k : Nat) (f : Stage → Stage) (i : Nat) : (s.updStage p k f).engine i = s.engine i := rfl
@[simp] theorem State.chan_of_updStage (s : State) (p k : Nat) (f : Stage → Stage) (i : Nat) : (s.updStage p k f).chan i = s.chan i := rfl
@[simp] theorem State.region_of_updStage (s : State) (p k : Nat) (f : Stage → Stage) (i : Nat) : (s.updStage p k f).region i = s.region i := rfl
@[simp] theorem State.fabPort_of_updStage (s : State) (p k : Nat) (f : Stage → Stage) (i : Nat) : (s.updStage p k f).fabPort i = s.fabPort i := rfl
@[simp] theorem State.fn_of_updCore (s : State) (k : Nat) (f : Core → Core) (i : Nat) : (s.updCore k f).fn i = s.fn i := rfl
@[simp] theorem State.port_of_updCore (s : State) (k : Nat) (f : Core → Core) (i : Nat) : (s.updCore k f).port i = s.port i := rfl
@[simp] theorem State.part_of_updCore (s : State) (k : Nat) (f : Core → Core) (i : Nat) : (s.updCore k f).part i = s.part i := rfl
@[simp] theorem State.gang_of_updCore (s : State) (k : Nat) (f : Core → Core) (i : Nat) : (s.updCore k f).gang i = s.gang i := rfl
@[simp] theorem State.sub_of_updCore (s : State) (k : Nat) (f : Core → Core) (i : Nat) : (s.updCore k f).sub i = s.sub i := rfl
@[simp] theorem State.job_of_updCore (s : State) (k : Nat) (f : Core → Core) (i : Nat) : (s.updCore k f).job i = s.job i := rfl
@[simp] theorem State.engine_of_updCore (s : State) (k : Nat) (f : Core → Core) (i : Nat) : (s.updCore k f).engine i = s.engine i := rfl
@[simp] theorem State.chan_of_updCore (s : State) (k : Nat) (f : Core → Core) (i : Nat) : (s.updCore k f).chan i = s.chan i := rfl
@[simp] theorem State.region_of_updCore (s : State) (k : Nat) (f : Core → Core) (i : Nat) : (s.updCore k f).region i = s.region i := rfl
@[simp] theorem State.fabPort_of_updCore (s : State) (k : Nat) (f : Core → Core) (i : Nat) : (s.updCore k f).fabPort i = s.fabPort i := rfl
@[simp] theorem State.fn_of_updGang (s : State) (k : Nat) (f : Gang → Gang) (i : Nat) : (s.updGang k f).fn i = s.fn i := rfl
@[simp] theorem State.port_of_updGang (s : State) (k : Nat) (f : Gang → Gang) (i : Nat) : (s.updGang k f).port i = s.port i := rfl
@[simp] theorem State.part_of_updGang (s : State) (k : Nat) (f : Gang → Gang) (i : Nat) : (s.updGang k f).part i = s.part i := rfl
@[simp] theorem State.core_of_updGang (s : State) (k : Nat) (f : Gang → Gang) (i : Nat) : (s.updGang k f).core i = s.core i := rfl
@[simp] theorem State.sub_of_updGang (s : State) (k : Nat) (f : Gang → Gang) (i : Nat) : (s.updGang k f).sub i = s.sub i := rfl
@[simp] theorem State.job_of_updGang (s : State) (k : Nat) (f : Gang → Gang) (i : Nat) : (s.updGang k f).job i = s.job i := rfl
@[simp] theorem State.engine_of_updGang (s : State) (k : Nat) (f : Gang → Gang) (i : Nat) : (s.updGang k f).engine i = s.engine i := rfl
@[simp] theorem State.chan_of_updGang (s : State) (k : Nat) (f : Gang → Gang) (i : Nat) : (s.updGang k f).chan i = s.chan i := rfl
@[simp] theorem State.region_of_updGang (s : State) (k : Nat) (f : Gang → Gang) (i : Nat) : (s.updGang k f).region i = s.region i := rfl
@[simp] theorem State.fabPort_of_updGang (s : State) (k : Nat) (f : Gang → Gang) (i : Nat) : (s.updGang k f).fabPort i = s.fabPort i := rfl
@[simp] theorem State.fn_of_setSub (s : State) (k : Nat) (l : List StEntry) (i : Nat) : (s.setSub k l).fn i = s.fn i := rfl
@[simp] theorem State.port_of_setSub (s : State) (k : Nat) (l : List StEntry) (i : Nat) : (s.setSub k l).port i = s.port i := rfl
@[simp] theorem State.part_of_setSub (s : State) (k : Nat) (l : List StEntry) (i : Nat) : (s.setSub k l).part i = s.part i := rfl
@[simp] theorem State.core_of_setSub (s : State) (k : Nat) (l : List StEntry) (i : Nat) : (s.setSub k l).core i = s.core i := rfl
@[simp] theorem State.gang_of_setSub (s : State) (k : Nat) (l : List StEntry) (i : Nat) : (s.setSub k l).gang i = s.gang i := rfl
@[simp] theorem State.job_of_setSub (s : State) (k : Nat) (l : List StEntry) (i : Nat) : (s.setSub k l).job i = s.job i := rfl
@[simp] theorem State.engine_of_setSub (s : State) (k : Nat) (l : List StEntry) (i : Nat) : (s.setSub k l).engine i = s.engine i := rfl
@[simp] theorem State.chan_of_setSub (s : State) (k : Nat) (l : List StEntry) (i : Nat) : (s.setSub k l).chan i = s.chan i := rfl
@[simp] theorem State.region_of_setSub (s : State) (k : Nat) (l : List StEntry) (i : Nat) : (s.setSub k l).region i = s.region i := rfl
@[simp] theorem State.fabPort_of_setSub (s : State) (k : Nat) (l : List StEntry) (i : Nat) : (s.setSub k l).fabPort i = s.fabPort i := rfl
@[simp] theorem State.fn_of_updMem (s : State) (f : Mem → Mem) (i : Nat) : (s.updMem f).fn i = s.fn i := rfl
@[simp] theorem State.port_of_updMem (s : State) (f : Mem → Mem) (i : Nat) : (s.updMem f).port i = s.port i := rfl
@[simp] theorem State.part_of_updMem (s : State) (f : Mem → Mem) (i : Nat) : (s.updMem f).part i = s.part i := rfl
@[simp] theorem State.core_of_updMem (s : State) (f : Mem → Mem) (i : Nat) : (s.updMem f).core i = s.core i := rfl
@[simp] theorem State.gang_of_updMem (s : State) (f : Mem → Mem) (i : Nat) : (s.updMem f).gang i = s.gang i := rfl
@[simp] theorem State.sub_of_updMem (s : State) (f : Mem → Mem) (i : Nat) : (s.updMem f).sub i = s.sub i := rfl
@[simp] theorem State.job_of_updMem (s : State) (f : Mem → Mem) (i : Nat) : (s.updMem f).job i = s.job i := rfl
@[simp] theorem State.engine_of_updMem (s : State) (f : Mem → Mem) (i : Nat) : (s.updMem f).engine i = s.engine i := rfl
@[simp] theorem State.fabPort_of_updMem (s : State) (f : Mem → Mem) (i : Nat) : (s.updMem f).fabPort i = s.fabPort i := rfl
@[simp] theorem State.fn_of_updChan (s : State) (k : Nat) (f : Chan → Chan) (i : Nat) : (s.updChan k f).fn i = s.fn i := rfl
@[simp] theorem State.port_of_updChan (s : State) (k : Nat) (f : Chan → Chan) (i : Nat) : (s.updChan k f).port i = s.port i := rfl
@[simp] theorem State.part_of_updChan (s : State) (k : Nat) (f : Chan → Chan) (i : Nat) : (s.updChan k f).part i = s.part i := rfl
@[simp] theorem State.core_of_updChan (s : State) (k : Nat) (f : Chan → Chan) (i : Nat) : (s.updChan k f).core i = s.core i := rfl
@[simp] theorem State.gang_of_updChan (s : State) (k : Nat) (f : Chan → Chan) (i : Nat) : (s.updChan k f).gang i = s.gang i := rfl
@[simp] theorem State.sub_of_updChan (s : State) (k : Nat) (f : Chan → Chan) (i : Nat) : (s.updChan k f).sub i = s.sub i := rfl
@[simp] theorem State.job_of_updChan (s : State) (k : Nat) (f : Chan → Chan) (i : Nat) : (s.updChan k f).job i = s.job i := rfl
@[simp] theorem State.engine_of_updChan (s : State) (k : Nat) (f : Chan → Chan) (i : Nat) : (s.updChan k f).engine i = s.engine i := rfl
@[simp] theorem State.fabPort_of_updChan (s : State) (k : Nat) (f : Chan → Chan) (i : Nat) : (s.updChan k f).fabPort i = s.fabPort i := rfl
@[simp] theorem State.fn_of_updRegion (s : State) (k : Nat) (f : Region → Region) (i : Nat) : (s.updRegion k f).fn i = s.fn i := rfl
@[simp] theorem State.port_of_updRegion (s : State) (k : Nat) (f : Region → Region) (i : Nat) : (s.updRegion k f).port i = s.port i := rfl
@[simp] theorem State.part_of_updRegion (s : State) (k : Nat) (f : Region → Region) (i : Nat) : (s.updRegion k f).part i = s.part i := rfl
@[simp] theorem State.core_of_updRegion (s : State) (k : Nat) (f : Region → Region) (i : Nat) : (s.updRegion k f).core i = s.core i := rfl
@[simp] theorem State.gang_of_updRegion (s : State) (k : Nat) (f : Region → Region) (i : Nat) : (s.updRegion k f).gang i = s.gang i := rfl
@[simp] theorem State.sub_of_updRegion (s : State) (k : Nat) (f : Region → Region) (i : Nat) : (s.updRegion k f).sub i = s.sub i := rfl
@[simp] theorem State.job_of_updRegion (s : State) (k : Nat) (f : Region → Region) (i : Nat) : (s.updRegion k f).job i = s.job i := rfl
@[simp] theorem State.engine_of_updRegion (s : State) (k : Nat) (f : Region → Region) (i : Nat) : (s.updRegion k f).engine i = s.engine i := rfl
@[simp] theorem State.fabPort_of_updRegion (s : State) (k : Nat) (f : Region → Region) (i : Nat) : (s.updRegion k f).fabPort i = s.fabPort i := rfl
@[simp] theorem State.fn_of_updFab (s : State) (f : Fab → Fab) (i : Nat) : (s.updFab f).fn i = s.fn i := rfl
@[simp] theorem State.port_of_updFab (s : State) (f : Fab → Fab) (i : Nat) : (s.updFab f).port i = s.port i := rfl
@[simp] theorem State.part_of_updFab (s : State) (f : Fab → Fab) (i : Nat) : (s.updFab f).part i = s.part i := rfl
@[simp] theorem State.core_of_updFab (s : State) (f : Fab → Fab) (i : Nat) : (s.updFab f).core i = s.core i := rfl
@[simp] theorem State.gang_of_updFab (s : State) (f : Fab → Fab) (i : Nat) : (s.updFab f).gang i = s.gang i := rfl
@[simp] theorem State.sub_of_updFab (s : State) (f : Fab → Fab) (i : Nat) : (s.updFab f).sub i = s.sub i := rfl
@[simp] theorem State.job_of_updFab (s : State) (f : Fab → Fab) (i : Nat) : (s.updFab f).job i = s.job i := rfl
@[simp] theorem State.engine_of_updFab (s : State) (f : Fab → Fab) (i : Nat) : (s.updFab f).engine i = s.engine i := rfl
@[simp] theorem State.chan_of_updFab (s : State) (f : Fab → Fab) (i : Nat) : (s.updFab f).chan i = s.chan i := rfl
@[simp] theorem State.region_of_updFab (s : State) (f : Fab → Fab) (i : Nat) : (s.updFab f).region i = s.region i := rfl
@[simp] theorem State.fn_of_updFabPort (s : State) (k : Nat) (f : FabPort → FabPort) (i : Nat) : (s.updFabPort k f).fn i = s.fn i := rfl
@[simp] theorem State.port_of_updFabPort (s : State) (k : Nat) (f : FabPort → FabPort) (i : Nat) : (s.updFabPort k f).port i = s.port i := rfl
@[simp] theorem State.part_of_updFabPort (s : State) (k : Nat) (f : FabPort → FabPort) (i : Nat) : (s.updFabPort k f).part i = s.part i := rfl
@[simp] theorem State.core_of_updFabPort (s : State) (k : Nat) (f : FabPort → FabPort) (i : Nat) : (s.updFabPort k f).core i = s.core i := rfl
@[simp] theorem State.gang_of_updFabPort (s : State) (k : Nat) (f : FabPort → FabPort) (i : Nat) : (s.updFabPort k f).gang i = s.gang i := rfl
@[simp] theorem State.sub_of_updFabPort (s : State) (k : Nat) (f : FabPort → FabPort) (i : Nat) : (s.updFabPort k f).sub i = s.sub i := rfl
@[simp] theorem State.job_of_updFabPort (s : State) (k : Nat) (f : FabPort → FabPort) (i : Nat) : (s.updFabPort k f).job i = s.job i := rfl
@[simp] theorem State.engine_of_updFabPort (s : State) (k : Nat) (f : FabPort → FabPort) (i : Nat) : (s.updFabPort k f).engine i = s.engine i := rfl
@[simp] theorem State.chan_of_updFabPort (s : State) (k : Nat) (f : FabPort → FabPort) (i : Nat) : (s.updFabPort k f).chan i = s.chan i := rfl
@[simp] theorem State.region_of_updFabPort (s : State) (k : Nat) (f : FabPort → FabPort) (i : Nat) : (s.updFabPort k f).region i = s.region i := rfl
@[simp] theorem State.fn_of_updJob (s : State) (k : Nat) (f : Job → Job) (i : Nat) : (s.updJob k f).fn i = s.fn i := rfl
@[simp] theorem State.port_of_updJob (s : State) (k : Nat) (f : Job → Job) (i : Nat) : (s.updJob k f).port i = s.port i := rfl
@[simp] theorem State.part_of_updJob (s : State) (k : Nat) (f : Job → Job) (i : Nat) : (s.updJob k f).part i = s.part i := rfl
@[simp] theorem State.core_of_updJob (s : State) (k : Nat) (f : Job → Job) (i : Nat) : (s.updJob k f).core i = s.core i := rfl
@[simp] theorem State.gang_of_updJob (s : State) (k : Nat) (f : Job → Job) (i : Nat) : (s.updJob k f).gang i = s.gang i := rfl
@[simp] theorem State.sub_of_updJob (s : State) (k : Nat) (f : Job → Job) (i : Nat) : (s.updJob k f).sub i = s.sub i := rfl
@[simp] theorem State.engine_of_updJob (s : State) (k : Nat) (f : Job → Job) (i : Nat) : (s.updJob k f).engine i = s.engine i := rfl
@[simp] theorem State.chan_of_updJob (s : State) (k : Nat) (f : Job → Job) (i : Nat) : (s.updJob k f).chan i = s.chan i := rfl
@[simp] theorem State.region_of_updJob (s : State) (k : Nat) (f : Job → Job) (i : Nat) : (s.updJob k f).region i = s.region i := rfl
@[simp] theorem State.fabPort_of_updJob (s : State) (k : Nat) (f : Job → Job) (i : Nat) : (s.updJob k f).fabPort i = s.fabPort i := rfl
@[simp] theorem State.fn_of_updEngine (s : State) (k : Nat) (f : Engine → Engine) (i : Nat) : (s.updEngine k f).fn i = s.fn i := rfl
@[simp] theorem State.port_of_updEngine (s : State) (k : Nat) (f : Engine → Engine) (i : Nat) : (s.updEngine k f).port i = s.port i := rfl
@[simp] theorem State.part_of_updEngine (s : State) (k : Nat) (f : Engine → Engine) (i : Nat) : (s.updEngine k f).part i = s.part i := rfl
@[simp] theorem State.core_of_updEngine (s : State) (k : Nat) (f : Engine → Engine) (i : Nat) : (s.updEngine k f).core i = s.core i := rfl
@[simp] theorem State.gang_of_updEngine (s : State) (k : Nat) (f : Engine → Engine) (i : Nat) : (s.updEngine k f).gang i = s.gang i := rfl
@[simp] theorem State.sub_of_updEngine (s : State) (k : Nat) (f : Engine → Engine) (i : Nat) : (s.updEngine k f).sub i = s.sub i := rfl
@[simp] theorem State.job_of_updEngine (s : State) (k : Nat) (f : Engine → Engine) (i : Nat) : (s.updEngine k f).job i = s.job i := rfl
@[simp] theorem State.chan_of_updEngine (s : State) (k : Nat) (f : Engine → Engine) (i : Nat) : (s.updEngine k f).chan i = s.chan i := rfl
@[simp] theorem State.region_of_updEngine (s : State) (k : Nat) (f : Engine → Engine) (i : Nat) : (s.updEngine k f).region i = s.region i := rfl
@[simp] theorem State.fabPort_of_updEngine (s : State) (k : Nat) (f : Engine → Engine) (i : Nat) : (s.updEngine k f).fabPort i = s.fabPort i := rfl
@[simp] theorem State.fn_of_charge (s : State) (p t k n : Nat) (i : Nat) : (s.charge p t k n).fn i = s.fn i := rfl
@[simp] theorem State.port_of_charge (s : State) (p t k n : Nat) (i : Nat) : (s.charge p t k n).port i = s.port i := rfl
@[simp] theorem State.part_of_charge (s : State) (p t k n : Nat) (i : Nat) : (s.charge p t k n).part i = s.part i := rfl
@[simp] theorem State.core_of_charge (s : State) (p t k n : Nat) (i : Nat) : (s.charge p t k n).core i = s.core i := rfl
@[simp] theorem State.gang_of_charge (s : State) (p t k n : Nat) (i : Nat) : (s.charge p t k n).gang i = s.gang i := rfl
@[simp] theorem State.sub_of_charge (s : State) (p t k n : Nat) (i : Nat) : (s.charge p t k n).sub i = s.sub i := rfl
@[simp] theorem State.job_of_charge (s : State) (p t k n : Nat) (i : Nat) : (s.charge p t k n).job i = s.job i := rfl
@[simp] theorem State.engine_of_charge (s : State) (p t k n : Nat) (i : Nat) : (s.charge p t k n).engine i = s.engine i := rfl
@[simp] theorem State.chan_of_charge (s : State) (p t k n : Nat) (i : Nat) : (s.charge p t k n).chan i = s.chan i := rfl
@[simp] theorem State.region_of_charge (s : State) (p t k n : Nat) (i : Nat) : (s.charge p t k n).region i = s.region i := rfl
@[simp] theorem State.fabPort_of_charge (s : State) (p t k n : Nat) (i : Nat) : (s.charge p t k n).fabPort i = s.fabPort i := rfl
@[simp] theorem State.fn_of_chargeIdle (s : State) (k n : Nat) (i : Nat) : (s.chargeIdle k n).fn i = s.fn i := rfl
@[simp] theorem State.port_of_chargeIdle (s : State) (k n : Nat) (i : Nat) : (s.chargeIdle k n).port i = s.port i := rfl
@[simp] theorem State.part_of_chargeIdle (s : State) (k n : Nat) (i : Nat) : (s.chargeIdle k n).part i = s.part i := rfl
@[simp] theorem State.core_of_chargeIdle (s : State) (k n : Nat) (i : Nat) : (s.chargeIdle k n).core i = s.core i := rfl
@[simp] theorem State.gang_of_chargeIdle (s : State) (k n : Nat) (i : Nat) : (s.chargeIdle k n).gang i = s.gang i := rfl
@[simp] theorem State.sub_of_chargeIdle (s : State) (k n : Nat) (i : Nat) : (s.chargeIdle k n).sub i = s.sub i := rfl
@[simp] theorem State.job_of_chargeIdle (s : State) (k n : Nat) (i : Nat) : (s.chargeIdle k n).job i = s.job i := rfl
@[simp] theorem State.engine_of_chargeIdle (s : State) (k n : Nat) (i : Nat) : (s.chargeIdle k n).engine i = s.engine i := rfl
@[simp] theorem State.chan_of_chargeIdle (s : State) (k n : Nat) (i : Nat) : (s.chargeIdle k n).chan i = s.chan i := rfl
@[simp] theorem State.region_of_chargeIdle (s : State) (k n : Nat) (i : Nat) : (s.chargeIdle k n).region i = s.region i := rfl
@[simp] theorem State.fabPort_of_chargeIdle (s : State) (k n : Nat) (i : Nat) : (s.chargeIdle k n).fabPort i = s.fabPort i := rfl
@[simp] theorem State.ring_of_updFn (s : State) (k : Nat) (f : Fn → Fn) (i j : Nat) : (s.updFn k f).ring i j = s.ring i j := rfl
@[simp] theorem State.cmd_of_updFn (s : State) (k : Nat) (f : Fn → Fn) (i j : Nat) : (s.updFn k f).cmd i j = s.cmd i j := rfl
@[simp] theorem State.seam_of_updFn (s : State) (k : Nat) (f : Fn → Fn) (i j : Nat) : (s.updFn k f).seam i j = s.seam i j := rfl
@[simp] theorem State.conv_of_updFn (s : State) (k : Nat) (f : Fn → Fn) (i j : Nat) : (s.updFn k f).conv i j = s.conv i j := rfl
@[simp] theorem State.tensor_of_updFn (s : State) (k : Nat) (f : Fn → Fn) (i j : Nat) : (s.updFn k f).tensor i j = s.tensor i j := rfl
@[simp] theorem State.stg_of_updFn (s : State) (k : Nat) (f : Fn → Fn) (i j : Nat) : (s.updFn k f).stg i j = s.stg i j := rfl
@[simp] theorem State.ring_of_updPort (s : State) (k : Nat) (f : HostPort → HostPort) (i j : Nat) : (s.updPort k f).ring i j = s.ring i j := rfl
@[simp] theorem State.cmd_of_updPort (s : State) (k : Nat) (f : HostPort → HostPort) (i j : Nat) : (s.updPort k f).cmd i j = s.cmd i j := rfl
@[simp] theorem State.seam_of_updPort (s : State) (k : Nat) (f : HostPort → HostPort) (i j : Nat) : (s.updPort k f).seam i j = s.seam i j := rfl
@[simp] theorem State.conv_of_updPort (s : State) (k : Nat) (f : HostPort → HostPort) (i j : Nat) : (s.updPort k f).conv i j = s.conv i j := rfl
@[simp] theorem State.tensor_of_updPort (s : State) (k : Nat) (f : HostPort → HostPort) (i j : Nat) : (s.updPort k f).tensor i j = s.tensor i j := rfl
@[simp] theorem State.stg_of_updPort (s : State) (k : Nat) (f : HostPort → HostPort) (i j : Nat) : (s.updPort k f).stg i j = s.stg i j := rfl
@[simp] theorem State.ring_of_updCore (s : State) (k : Nat) (f : Core → Core) (i j : Nat) : (s.updCore k f).ring i j = s.ring i j := rfl
@[simp] theorem State.cmd_of_updCore (s : State) (k : Nat) (f : Core → Core) (i j : Nat) : (s.updCore k f).cmd i j = s.cmd i j := rfl
@[simp] theorem State.seam_of_updCore (s : State) (k : Nat) (f : Core → Core) (i j : Nat) : (s.updCore k f).seam i j = s.seam i j := rfl
@[simp] theorem State.conv_of_updCore (s : State) (k : Nat) (f : Core → Core) (i j : Nat) : (s.updCore k f).conv i j = s.conv i j := rfl
@[simp] theorem State.tensor_of_updCore (s : State) (k : Nat) (f : Core → Core) (i j : Nat) : (s.updCore k f).tensor i j = s.tensor i j := rfl
@[simp] theorem State.stg_of_updCore (s : State) (k : Nat) (f : Core → Core) (i j : Nat) : (s.updCore k f).stg i j = s.stg i j := rfl
@[simp] theorem State.ring_of_updGang (s : State) (k : Nat) (f : Gang → Gang) (i j : Nat) : (s.updGang k f).ring i j = s.ring i j := rfl
@[simp] theorem State.cmd_of_updGang (s : State) (k : Nat) (f : Gang → Gang) (i j : Nat) : (s.updGang k f).cmd i j = s.cmd i j := rfl
@[simp] theorem State.seam_of_updGang (s : State) (k : Nat) (f : Gang → Gang) (i j : Nat) : (s.updGang k f).seam i j = s.seam i j := rfl
@[simp] theorem State.conv_of_updGang (s : State) (k : Nat) (f : Gang → Gang) (i j : Nat) : (s.updGang k f).conv i j = s.conv i j := rfl
@[simp] theorem State.tensor_of_updGang (s : State) (k : Nat) (f : Gang → Gang) (i j : Nat) : (s.updGang k f).tensor i j = s.tensor i j := rfl
@[simp] theorem State.stg_of_updGang (s : State) (k : Nat) (f : Gang → Gang) (i j : Nat) : (s.updGang k f).stg i j = s.stg i j := rfl
@[simp] theorem State.ring_of_setSub (s : State) (k : Nat) (l : List StEntry) (i j : Nat) : (s.setSub k l).ring i j = s.ring i j := rfl
@[simp] theorem State.cmd_of_setSub (s : State) (k : Nat) (l : List StEntry) (i j : Nat) : (s.setSub k l).cmd i j = s.cmd i j := rfl
@[simp] theorem State.seam_of_setSub (s : State) (k : Nat) (l : List StEntry) (i j : Nat) : (s.setSub k l).seam i j = s.seam i j := rfl
@[simp] theorem State.conv_of_setSub (s : State) (k : Nat) (l : List StEntry) (i j : Nat) : (s.setSub k l).conv i j = s.conv i j := rfl
@[simp] theorem State.tensor_of_setSub (s : State) (k : Nat) (l : List StEntry) (i j : Nat) : (s.setSub k l).tensor i j = s.tensor i j := rfl
@[simp] theorem State.stg_of_setSub (s : State) (k : Nat) (l : List StEntry) (i j : Nat) : (s.setSub k l).stg i j = s.stg i j := rfl
@[simp] theorem State.ring_of_updMem (s : State) (f : Mem → Mem) (i j : Nat) : (s.updMem f).ring i j = s.ring i j := rfl
@[simp] theorem State.cmd_of_updMem (s : State) (f : Mem → Mem) (i j : Nat) : (s.updMem f).cmd i j = s.cmd i j := rfl
@[simp] theorem State.seam_of_updMem (s : State) (f : Mem → Mem) (i j : Nat) : (s.updMem f).seam i j = s.seam i j := rfl
@[simp] theorem State.conv_of_updMem (s : State) (f : Mem → Mem) (i j : Nat) : (s.updMem f).conv i j = s.conv i j := rfl
@[simp] theorem State.tensor_of_updMem (s : State) (f : Mem → Mem) (i j : Nat) : (s.updMem f).tensor i j = s.tensor i j := rfl
@[simp] theorem State.stg_of_updMem (s : State) (f : Mem → Mem) (i j : Nat) : (s.updMem f).stg i j = s.stg i j := rfl
@[simp] theorem State.ring_of_updChan (s : State) (k : Nat) (f : Chan → Chan) (i j : Nat) : (s.updChan k f).ring i j = s.ring i j := rfl
@[simp] theorem State.cmd_of_updChan (s : State) (k : Nat) (f : Chan → Chan) (i j : Nat) : (s.updChan k f).cmd i j = s.cmd i j := rfl
@[simp] theorem State.seam_of_updChan (s : State) (k : Nat) (f : Chan → Chan) (i j : Nat) : (s.updChan k f).seam i j = s.seam i j := rfl
@[simp] theorem State.conv_of_updChan (s : State) (k : Nat) (f : Chan → Chan) (i j : Nat) : (s.updChan k f).conv i j = s.conv i j := rfl
@[simp] theorem State.tensor_of_updChan (s : State) (k : Nat) (f : Chan → Chan) (i j : Nat) : (s.updChan k f).tensor i j = s.tensor i j := rfl
@[simp] theorem State.stg_of_updChan (s : State) (k : Nat) (f : Chan → Chan) (i j : Nat) : (s.updChan k f).stg i j = s.stg i j := rfl
@[simp] theorem State.ring_of_updRegion (s : State) (k : Nat) (f : Region → Region) (i j : Nat) : (s.updRegion k f).ring i j = s.ring i j := rfl
@[simp] theorem State.cmd_of_updRegion (s : State) (k : Nat) (f : Region → Region) (i j : Nat) : (s.updRegion k f).cmd i j = s.cmd i j := rfl
@[simp] theorem State.seam_of_updRegion (s : State) (k : Nat) (f : Region → Region) (i j : Nat) : (s.updRegion k f).seam i j = s.seam i j := rfl
@[simp] theorem State.conv_of_updRegion (s : State) (k : Nat) (f : Region → Region) (i j : Nat) : (s.updRegion k f).conv i j = s.conv i j := rfl
@[simp] theorem State.tensor_of_updRegion (s : State) (k : Nat) (f : Region → Region) (i j : Nat) : (s.updRegion k f).tensor i j = s.tensor i j := rfl
@[simp] theorem State.stg_of_updRegion (s : State) (k : Nat) (f : Region → Region) (i j : Nat) : (s.updRegion k f).stg i j = s.stg i j := rfl
@[simp] theorem State.ring_of_updFab (s : State) (f : Fab → Fab) (i j : Nat) : (s.updFab f).ring i j = s.ring i j := rfl
@[simp] theorem State.cmd_of_updFab (s : State) (f : Fab → Fab) (i j : Nat) : (s.updFab f).cmd i j = s.cmd i j := rfl
@[simp] theorem State.seam_of_updFab (s : State) (f : Fab → Fab) (i j : Nat) : (s.updFab f).seam i j = s.seam i j := rfl
@[simp] theorem State.conv_of_updFab (s : State) (f : Fab → Fab) (i j : Nat) : (s.updFab f).conv i j = s.conv i j := rfl
@[simp] theorem State.tensor_of_updFab (s : State) (f : Fab → Fab) (i j : Nat) : (s.updFab f).tensor i j = s.tensor i j := rfl
@[simp] theorem State.stg_of_updFab (s : State) (f : Fab → Fab) (i j : Nat) : (s.updFab f).stg i j = s.stg i j := rfl
@[simp] theorem State.ring_of_updFabPort (s : State) (k : Nat) (f : FabPort → FabPort) (i j : Nat) : (s.updFabPort k f).ring i j = s.ring i j := rfl
@[simp] theorem State.cmd_of_updFabPort (s : State) (k : Nat) (f : FabPort → FabPort) (i j : Nat) : (s.updFabPort k f).cmd i j = s.cmd i j := rfl
@[simp] theorem State.seam_of_updFabPort (s : State) (k : Nat) (f : FabPort → FabPort) (i j : Nat) : (s.updFabPort k f).seam i j = s.seam i j := rfl
@[simp] theorem State.conv_of_updFabPort (s : State) (k : Nat) (f : FabPort → FabPort) (i j : Nat) : (s.updFabPort k f).conv i j = s.conv i j := rfl
@[simp] theorem State.tensor_of_updFabPort (s : State) (k : Nat) (f : FabPort → FabPort) (i j : Nat) : (s.updFabPort k f).tensor i j = s.tensor i j := rfl
@[simp] theorem State.stg_of_updFabPort (s : State) (k : Nat) (f : FabPort → FabPort) (i j : Nat) : (s.updFabPort k f).stg i j = s.stg i j := rfl
@[simp] theorem State.ring_of_updJob (s : State) (k : Nat) (f : Job → Job) (i j : Nat) : (s.updJob k f).ring i j = s.ring i j := rfl
@[simp] theorem State.cmd_of_updJob (s : State) (k : Nat) (f : Job → Job) (i j : Nat) : (s.updJob k f).cmd i j = s.cmd i j := rfl
@[simp] theorem State.seam_of_updJob (s : State) (k : Nat) (f : Job → Job) (i j : Nat) : (s.updJob k f).seam i j = s.seam i j := rfl
@[simp] theorem State.conv_of_updJob (s : State) (k : Nat) (f : Job → Job) (i j : Nat) : (s.updJob k f).conv i j = s.conv i j := rfl
@[simp] theorem State.tensor_of_updJob (s : State) (k : Nat) (f : Job → Job) (i j : Nat) : (s.updJob k f).tensor i j = s.tensor i j := rfl
@[simp] theorem State.stg_of_updJob (s : State) (k : Nat) (f : Job → Job) (i j : Nat) : (s.updJob k f).stg i j = s.stg i j := rfl
@[simp] theorem State.ring_of_updEngine (s : State) (k : Nat) (f : Engine → Engine) (i j : Nat) : (s.updEngine k f).ring i j = s.ring i j := rfl
@[simp] theorem State.cmd_of_updEngine (s : State) (k : Nat) (f : Engine → Engine) (i j : Nat) : (s.updEngine k f).cmd i j = s.cmd i j := rfl
@[simp] theorem State.seam_of_updEngine (s : State) (k : Nat) (f : Engine → Engine) (i j : Nat) : (s.updEngine k f).seam i j = s.seam i j := rfl
@[simp] theorem State.conv_of_updEngine (s : State) (k : Nat) (f : Engine → Engine) (i j : Nat) : (s.updEngine k f).conv i j = s.conv i j := rfl
@[simp] theorem State.tensor_of_updEngine (s : State) (k : Nat) (f : Engine → Engine) (i j : Nat) : (s.updEngine k f).tensor i j = s.tensor i j := rfl
@[simp] theorem State.stg_of_updEngine (s : State) (k : Nat) (f : Engine → Engine) (i j : Nat) : (s.updEngine k f).stg i j = s.stg i j := rfl
@[simp] theorem State.ring_of_charge (s : State) (p t k n : Nat) (i j : Nat) : (s.charge p t k n).ring i j = s.ring i j := rfl
@[simp] theorem State.cmd_of_charge (s : State) (p t k n : Nat) (i j : Nat) : (s.charge p t k n).cmd i j = s.cmd i j := rfl
@[simp] theorem State.seam_of_charge (s : State) (p t k n : Nat) (i j : Nat) : (s.charge p t k n).seam i j = s.seam i j := rfl
@[simp] theorem State.conv_of_charge (s : State) (p t k n : Nat) (i j : Nat) : (s.charge p t k n).conv i j = s.conv i j := rfl
@[simp] theorem State.tensor_of_charge (s : State) (p t k n : Nat) (i j : Nat) : (s.charge p t k n).tensor i j = s.tensor i j := rfl
@[simp] theorem State.stg_of_charge (s : State) (p t k n : Nat) (i j : Nat) : (s.charge p t k n).stg i j = s.stg i j := rfl
@[simp] theorem State.ring_of_chargeIdle (s : State) (k n : Nat) (i j : Nat) : (s.chargeIdle k n).ring i j = s.ring i j := rfl
@[simp] theorem State.cmd_of_chargeIdle (s : State) (k n : Nat) (i j : Nat) : (s.chargeIdle k n).cmd i j = s.cmd i j := rfl
@[simp] theorem State.seam_of_chargeIdle (s : State) (k n : Nat) (i j : Nat) : (s.chargeIdle k n).seam i j = s.seam i j := rfl
@[simp] theorem State.conv_of_chargeIdle (s : State) (k n : Nat) (i j : Nat) : (s.chargeIdle k n).conv i j = s.conv i j := rfl
@[simp] theorem State.tensor_of_chargeIdle (s : State) (k n : Nat) (i j : Nat) : (s.chargeIdle k n).tensor i j = s.tensor i j := rfl
@[simp] theorem State.stg_of_chargeIdle (s : State) (k n : Nat) (i j : Nat) : (s.chargeIdle k n).stg i j = s.stg i j := rfl

end Sys2Proof.Machine
end

