-- ==== Sys2Proof/Laws/Ops.lean ====
section
/-!
SUPPORT. The shared operations: what each does, said once, and what it leaves as it was.
-/

namespace Sys2Proof.Machine

/-! updCad. -/

@[simp] theorem State.updCad_clk (s : State) (f : Cadence → Cadence) : (s.updCad f).clk = s.clk := rfl
@[simp] theorem State.updCad_free (s : State) (f : Cadence → Cadence) : (s.updCad f).free = s.free := rfl
@[simp] theorem State.updCad_uid (s : State) (f : Cadence → Cadence) : (s.updCad f).uid = s.uid := rfl
@[simp] theorem State.updCad_rst (s : State) (f : Cadence → Cadence) : (s.updCad f).rst = s.rst := rfl
@[simp] theorem State.updCad_foreignWr (s : State) (f : Cadence → Cadence) : (s.updCad f).foreignWr = s.foreignWr := rfl
@[simp] theorem State.updCad_fns (s : State) (f : Cadence → Cadence) : (s.updCad f).fns = s.fns := rfl
@[simp] theorem State.updCad_ports (s : State) (f : Cadence → Cadence) : (s.updCad f).ports = s.ports := rfl
@[simp] theorem State.updCad_binds (s : State) (f : Cadence → Cadence) : (s.updCad f).binds = s.binds := rfl
@[simp] theorem State.updCad_srv (s : State) (f : Cadence → Cadence) : (s.updCad f).srv = s.srv := rfl
@[simp] theorem State.updCad_flash (s : State) (f : Cadence → Cadence) : (s.updCad f).flash = s.flash := rfl
@[simp] theorem State.updCad_dpt (s : State) (f : Cadence → Cadence) : (s.updCad f).dpt = s.dpt := rfl
@[simp] theorem State.updCad_parts (s : State) (f : Cadence → Cadence) : (s.updCad f).parts = s.parts := rfl
@[simp] theorem State.updCad_cores (s : State) (f : Cadence → Cadence) : (s.updCad f).cores = s.cores := rfl
@[simp] theorem State.updCad_gangs (s : State) (f : Cadence → Cadence) : (s.updCad f).gangs = s.gangs := rfl
@[simp] theorem State.updCad_subs (s : State) (f : Cadence → Cadence) : (s.updCad f).subs = s.subs := rfl
@[simp] theorem State.updCad_trapStop (s : State) (f : Cadence → Cadence) : (s.updCad f).trapStop = s.trapStop := rfl
@[simp] theorem State.updCad_mem (s : State) (f : Cadence → Cadence) : (s.updCad f).mem = s.mem := rfl
@[simp] theorem State.updCad_fab (s : State) (f : Cadence → Cadence) : (s.updCad f).fab = s.fab := rfl
@[simp] theorem State.updCad_jobs (s : State) (f : Cadence → Cadence) : (s.updCad f).jobs = s.jobs := rfl
@[simp] theorem State.updCad_ckw (s : State) (f : Cadence → Cadence) : (s.updCad f).ckw = s.ckw := rfl
@[simp] theorem State.updCad_flt (s : State) (f : Cadence → Cadence) : (s.updCad f).flt = s.flt := rfl
@[simp] theorem State.updCad_pwr (s : State) (f : Cadence → Cadence) : (s.updCad f).pwr = s.pwr := rfl
@[simp] theorem State.updCad_engines (s : State) (f : Cadence → Cadence) : (s.updCad f).engines = s.engines := rfl
@[simp] theorem State.updCad_pending (s : State) (f : Cadence → Cadence) : (s.updCad f).pending = s.pending := rfl

/-! updUnit. -/

@[simp] theorem State.updUnit_clk (s : State) (c u : Nat) (f : MUnit → MUnit) : (s.updUnit c u f).clk = s.clk := rfl
@[simp] theorem State.updUnit_free (s : State) (c u : Nat) (f : MUnit → MUnit) : (s.updUnit c u f).free = s.free := rfl
@[simp] theorem State.updUnit_uid (s : State) (c u : Nat) (f : MUnit → MUnit) : (s.updUnit c u f).uid = s.uid := rfl
@[simp] theorem State.updUnit_rst (s : State) (c u : Nat) (f : MUnit → MUnit) : (s.updUnit c u f).rst = s.rst := rfl
@[simp] theorem State.updUnit_foreignWr (s : State) (c u : Nat) (f : MUnit → MUnit) : (s.updUnit c u f).foreignWr = s.foreignWr := rfl
@[simp] theorem State.updUnit_fns (s : State) (c u : Nat) (f : MUnit → MUnit) : (s.updUnit c u f).fns = s.fns := rfl
@[simp] theorem State.updUnit_ports (s : State) (c u : Nat) (f : MUnit → MUnit) : (s.updUnit c u f).ports = s.ports := rfl
@[simp] theorem State.updUnit_binds (s : State) (c u : Nat) (f : MUnit → MUnit) : (s.updUnit c u f).binds = s.binds := rfl
@[simp] theorem State.updUnit_srv (s : State) (c u : Nat) (f : MUnit → MUnit) : (s.updUnit c u f).srv = s.srv := rfl
@[simp] theorem State.updUnit_flash (s : State) (c u : Nat) (f : MUnit → MUnit) : (s.updUnit c u f).flash = s.flash := rfl
@[simp] theorem State.updUnit_dpt (s : State) (c u : Nat) (f : MUnit → MUnit) : (s.updUnit c u f).dpt = s.dpt := rfl
@[simp] theorem State.updUnit_parts (s : State) (c u : Nat) (f : MUnit → MUnit) : (s.updUnit c u f).parts = s.parts := rfl
@[simp] theorem State.updUnit_gangs (s : State) (c u : Nat) (f : MUnit → MUnit) : (s.updUnit c u f).gangs = s.gangs := rfl
@[simp] theorem State.updUnit_subs (s : State) (c u : Nat) (f : MUnit → MUnit) : (s.updUnit c u f).subs = s.subs := rfl
@[simp] theorem State.updUnit_trapStop (s : State) (c u : Nat) (f : MUnit → MUnit) : (s.updUnit c u f).trapStop = s.trapStop := rfl
@[simp] theorem State.updUnit_mem (s : State) (c u : Nat) (f : MUnit → MUnit) : (s.updUnit c u f).mem = s.mem := rfl
@[simp] theorem State.updUnit_tim (s : State) (c u : Nat) (f : MUnit → MUnit) : (s.updUnit c u f).tim = s.tim := rfl
@[simp] theorem State.updUnit_fab (s : State) (c u : Nat) (f : MUnit → MUnit) : (s.updUnit c u f).fab = s.fab := rfl
@[simp] theorem State.updUnit_jobs (s : State) (c u : Nat) (f : MUnit → MUnit) : (s.updUnit c u f).jobs = s.jobs := rfl
@[simp] theorem State.updUnit_ckw (s : State) (c u : Nat) (f : MUnit → MUnit) : (s.updUnit c u f).ckw = s.ckw := rfl
@[simp] theorem State.updUnit_flt (s : State) (c u : Nat) (f : MUnit → MUnit) : (s.updUnit c u f).flt = s.flt := rfl
@[simp] theorem State.updUnit_pwr (s : State) (c u : Nat) (f : MUnit → MUnit) : (s.updUnit c u f).pwr = s.pwr := rfl
@[simp] theorem State.updUnit_engines (s : State) (c u : Nat) (f : MUnit → MUnit) : (s.updUnit c u f).engines = s.engines := rfl
@[simp] theorem State.updUnit_pending (s : State) (c u : Nat) (f : MUnit → MUnit) : (s.updUnit c u f).pending = s.pending := rfl

/-! updBar. -/

@[simp] theorem State.updBar_clk (s : State) (c i : Nat) (f : NamedBar → NamedBar) : (s.updBar c i f).clk = s.clk := rfl
@[simp] theorem State.updBar_free (s : State) (c i : Nat) (f : NamedBar → NamedBar) : (s.updBar c i f).free = s.free := rfl
@[simp] theorem State.updBar_uid (s : State) (c i : Nat) (f : NamedBar → NamedBar) : (s.updBar c i f).uid = s.uid := rfl
@[simp] theorem State.updBar_rst (s : State) (c i : Nat) (f : NamedBar → NamedBar) : (s.updBar c i f).rst = s.rst := rfl
@[simp] theorem State.updBar_foreignWr (s : State) (c i : Nat) (f : NamedBar → NamedBar) : (s.updBar c i f).foreignWr = s.foreignWr := rfl
@[simp] theorem State.updBar_fns (s : State) (c i : Nat) (f : NamedBar → NamedBar) : (s.updBar c i f).fns = s.fns := rfl
@[simp] theorem State.updBar_ports (s : State) (c i : Nat) (f : NamedBar → NamedBar) : (s.updBar c i f).ports = s.ports := rfl
@[simp] theorem State.updBar_binds (s : State) (c i : Nat) (f : NamedBar → NamedBar) : (s.updBar c i f).binds = s.binds := rfl
@[simp] theorem State.updBar_srv (s : State) (c i : Nat) (f : NamedBar → NamedBar) : (s.updBar c i f).srv = s.srv := rfl
@[simp] theorem State.updBar_flash (s : State) (c i : Nat) (f : NamedBar → NamedBar) : (s.updBar c i f).flash = s.flash := rfl
@[simp] theorem State.updBar_dpt (s : State) (c i : Nat) (f : NamedBar → NamedBar) : (s.updBar c i f).dpt = s.dpt := rfl
@[simp] theorem State.updBar_parts (s : State) (c i : Nat) (f : NamedBar → NamedBar) : (s.updBar c i f).parts = s.parts := rfl
@[simp] theorem State.updBar_gangs (s : State) (c i : Nat) (f : NamedBar → NamedBar) : (s.updBar c i f).gangs = s.gangs := rfl
@[simp] theorem State.updBar_subs (s : State) (c i : Nat) (f : NamedBar → NamedBar) : (s.updBar c i f).subs = s.subs := rfl
@[simp] theorem State.updBar_trapStop (s : State) (c i : Nat) (f : NamedBar → NamedBar) : (s.updBar c i f).trapStop = s.trapStop := rfl
@[simp] theorem State.updBar_mem (s : State) (c i : Nat) (f : NamedBar → NamedBar) : (s.updBar c i f).mem = s.mem := rfl
@[simp] theorem State.updBar_tim (s : State) (c i : Nat) (f : NamedBar → NamedBar) : (s.updBar c i f).tim = s.tim := rfl
@[simp] theorem State.updBar_fab (s : State) (c i : Nat) (f : NamedBar → NamedBar) : (s.updBar c i f).fab = s.fab := rfl
@[simp] theorem State.updBar_jobs (s : State) (c i : Nat) (f : NamedBar → NamedBar) : (s.updBar c i f).jobs = s.jobs := rfl
@[simp] theorem State.updBar_ckw (s : State) (c i : Nat) (f : NamedBar → NamedBar) : (s.updBar c i f).ckw = s.ckw := rfl
@[simp] theorem State.updBar_flt (s : State) (c i : Nat) (f : NamedBar → NamedBar) : (s.updBar c i f).flt = s.flt := rfl
@[simp] theorem State.updBar_pwr (s : State) (c i : Nat) (f : NamedBar → NamedBar) : (s.updBar c i f).pwr = s.pwr := rfl
@[simp] theorem State.updBar_engines (s : State) (c i : Nat) (f : NamedBar → NamedBar) : (s.updBar c i f).engines = s.engines := rfl
@[simp] theorem State.updBar_pending (s : State) (c i : Nat) (f : NamedBar → NamedBar) : (s.updBar c i f).pending = s.pending := rfl

/-! updAdit. -/

@[simp] theorem State.updAdit_clk (s : State) (p a : Nat) (f : Group AditSet → Group AditSet) : (s.updAdit p a f).clk = s.clk := rfl
@[simp] theorem State.updAdit_free (s : State) (p a : Nat) (f : Group AditSet → Group AditSet) : (s.updAdit p a f).free = s.free := rfl
@[simp] theorem State.updAdit_uid (s : State) (p a : Nat) (f : Group AditSet → Group AditSet) : (s.updAdit p a f).uid = s.uid := rfl
@[simp] theorem State.updAdit_rst (s : State) (p a : Nat) (f : Group AditSet → Group AditSet) : (s.updAdit p a f).rst = s.rst := rfl
@[simp] theorem State.updAdit_foreignWr (s : State) (p a : Nat) (f : Group AditSet → Group AditSet) : (s.updAdit p a f).foreignWr = s.foreignWr := rfl
@[simp] theorem State.updAdit_fns (s : State) (p a : Nat) (f : Group AditSet → Group AditSet) : (s.updAdit p a f).fns = s.fns := rfl
@[simp] theorem State.updAdit_ports (s : State) (p a : Nat) (f : Group AditSet → Group AditSet) : (s.updAdit p a f).ports = s.ports := rfl
@[simp] theorem State.updAdit_binds (s : State) (p a : Nat) (f : Group AditSet → Group AditSet) : (s.updAdit p a f).binds = s.binds := rfl
@[simp] theorem State.updAdit_srv (s : State) (p a : Nat) (f : Group AditSet → Group AditSet) : (s.updAdit p a f).srv = s.srv := rfl
@[simp] theorem State.updAdit_flash (s : State) (p a : Nat) (f : Group AditSet → Group AditSet) : (s.updAdit p a f).flash = s.flash := rfl
@[simp] theorem State.updAdit_dpt (s : State) (p a : Nat) (f : Group AditSet → Group AditSet) : (s.updAdit p a f).dpt = s.dpt := rfl
@[simp] theorem State.updAdit_cores (s : State) (p a : Nat) (f : Group AditSet → Group AditSet) : (s.updAdit p a f).cores = s.cores := rfl
@[simp] theorem State.updAdit_gangs (s : State) (p a : Nat) (f : Group AditSet → Group AditSet) : (s.updAdit p a f).gangs = s.gangs := rfl
@[simp] theorem State.updAdit_subs (s : State) (p a : Nat) (f : Group AditSet → Group AditSet) : (s.updAdit p a f).subs = s.subs := rfl
@[simp] theorem State.updAdit_trapStop (s : State) (p a : Nat) (f : Group AditSet → Group AditSet) : (s.updAdit p a f).trapStop = s.trapStop := rfl
@[simp] theorem State.updAdit_mem (s : State) (p a : Nat) (f : Group AditSet → Group AditSet) : (s.updAdit p a f).mem = s.mem := rfl
@[simp] theorem State.updAdit_tim (s : State) (p a : Nat) (f : Group AditSet → Group AditSet) : (s.updAdit p a f).tim = s.tim := rfl
@[simp] theorem State.updAdit_fab (s : State) (p a : Nat) (f : Group AditSet → Group AditSet) : (s.updAdit p a f).fab = s.fab := rfl
@[simp] theorem State.updAdit_jobs (s : State) (p a : Nat) (f : Group AditSet → Group AditSet) : (s.updAdit p a f).jobs = s.jobs := rfl
@[simp] theorem State.updAdit_ckw (s : State) (p a : Nat) (f : Group AditSet → Group AditSet) : (s.updAdit p a f).ckw = s.ckw := rfl
@[simp] theorem State.updAdit_flt (s : State) (p a : Nat) (f : Group AditSet → Group AditSet) : (s.updAdit p a f).flt = s.flt := rfl
@[simp] theorem State.updAdit_pwr (s : State) (p a : Nat) (f : Group AditSet → Group AditSet) : (s.updAdit p a f).pwr = s.pwr := rfl
@[simp] theorem State.updAdit_engines (s : State) (p a : Nat) (f : Group AditSet → Group AditSet) : (s.updAdit p a f).engines = s.engines := rfl
@[simp] theorem State.updAdit_pending (s : State) (p a : Nat) (f : Group AditSet → Group AditSet) : (s.updAdit p a f).pending = s.pending := rfl

/-! setDir. -/

@[simp] theorem State.setDir_clk (s : State) (line : Nat) (e : DirEntry) : (s.setDir line e).clk = s.clk := rfl
@[simp] theorem State.setDir_free (s : State) (line : Nat) (e : DirEntry) : (s.setDir line e).free = s.free := rfl
@[simp] theorem State.setDir_uid (s : State) (line : Nat) (e : DirEntry) : (s.setDir line e).uid = s.uid := rfl
@[simp] theorem State.setDir_rst (s : State) (line : Nat) (e : DirEntry) : (s.setDir line e).rst = s.rst := rfl
@[simp] theorem State.setDir_foreignWr (s : State) (line : Nat) (e : DirEntry) : (s.setDir line e).foreignWr = s.foreignWr := rfl
@[simp] theorem State.setDir_fns (s : State) (line : Nat) (e : DirEntry) : (s.setDir line e).fns = s.fns := rfl
@[simp] theorem State.setDir_ports (s : State) (line : Nat) (e : DirEntry) : (s.setDir line e).ports = s.ports := rfl
@[simp] theorem State.setDir_binds (s : State) (line : Nat) (e : DirEntry) : (s.setDir line e).binds = s.binds := rfl
@[simp] theorem State.setDir_srv (s : State) (line : Nat) (e : DirEntry) : (s.setDir line e).srv = s.srv := rfl
@[simp] theorem State.setDir_flash (s : State) (line : Nat) (e : DirEntry) : (s.setDir line e).flash = s.flash := rfl
@[simp] theorem State.setDir_dpt (s : State) (line : Nat) (e : DirEntry) : (s.setDir line e).dpt = s.dpt := rfl
@[simp] theorem State.setDir_parts (s : State) (line : Nat) (e : DirEntry) : (s.setDir line e).parts = s.parts := rfl
@[simp] theorem State.setDir_cores (s : State) (line : Nat) (e : DirEntry) : (s.setDir line e).cores = s.cores := rfl
@[simp] theorem State.setDir_gangs (s : State) (line : Nat) (e : DirEntry) : (s.setDir line e).gangs = s.gangs := rfl
@[simp] theorem State.setDir_subs (s : State) (line : Nat) (e : DirEntry) : (s.setDir line e).subs = s.subs := rfl
@[simp] theorem State.setDir_trapStop (s : State) (line : Nat) (e : DirEntry) : (s.setDir line e).trapStop = s.trapStop := rfl
@[simp] theorem State.setDir_tim (s : State) (line : Nat) (e : DirEntry) : (s.setDir line e).tim = s.tim := rfl
@[simp] theorem State.setDir_fab (s : State) (line : Nat) (e : DirEntry) : (s.setDir line e).fab = s.fab := rfl
@[simp] theorem State.setDir_jobs (s : State) (line : Nat) (e : DirEntry) : (s.setDir line e).jobs = s.jobs := rfl
@[simp] theorem State.setDir_ckw (s : State) (line : Nat) (e : DirEntry) : (s.setDir line e).ckw = s.ckw := rfl
@[simp] theorem State.setDir_flt (s : State) (line : Nat) (e : DirEntry) : (s.setDir line e).flt = s.flt := rfl
@[simp] theorem State.setDir_pwr (s : State) (line : Nat) (e : DirEntry) : (s.setDir line e).pwr = s.pwr := rfl
@[simp] theorem State.setDir_engines (s : State) (line : Nat) (e : DirEntry) : (s.setDir line e).engines = s.engines := rfl
@[simp] theorem State.setDir_pending (s : State) (line : Nat) (e : DirEntry) : (s.setDir line e).pending = s.pending := rfl

/-! setPoison. -/

@[simp] theorem State.setPoison_clk (s : State) (a : Nat) (b : Bool) : (s.setPoison a b).clk = s.clk := rfl
@[simp] theorem State.setPoison_free (s : State) (a : Nat) (b : Bool) : (s.setPoison a b).free = s.free := rfl
@[simp] theorem State.setPoison_uid (s : State) (a : Nat) (b : Bool) : (s.setPoison a b).uid = s.uid := rfl
@[simp] theorem State.setPoison_rst (s : State) (a : Nat) (b : Bool) : (s.setPoison a b).rst = s.rst := rfl
@[simp] theorem State.setPoison_foreignWr (s : State) (a : Nat) (b : Bool) : (s.setPoison a b).foreignWr = s.foreignWr := rfl
@[simp] theorem State.setPoison_fns (s : State) (a : Nat) (b : Bool) : (s.setPoison a b).fns = s.fns := rfl
@[simp] theorem State.setPoison_ports (s : State) (a : Nat) (b : Bool) : (s.setPoison a b).ports = s.ports := rfl
@[simp] theorem State.setPoison_binds (s : State) (a : Nat) (b : Bool) : (s.setPoison a b).binds = s.binds := rfl
@[simp] theorem State.setPoison_srv (s : State) (a : Nat) (b : Bool) : (s.setPoison a b).srv = s.srv := rfl
@[simp] theorem State.setPoison_flash (s : State) (a : Nat) (b : Bool) : (s.setPoison a b).flash = s.flash := rfl
@[simp] theorem State.setPoison_dpt (s : State) (a : Nat) (b : Bool) : (s.setPoison a b).dpt = s.dpt := rfl
@[simp] theorem State.setPoison_parts (s : State) (a : Nat) (b : Bool) : (s.setPoison a b).parts = s.parts := rfl
@[simp] theorem State.setPoison_cores (s : State) (a : Nat) (b : Bool) : (s.setPoison a b).cores = s.cores := rfl
@[simp] theorem State.setPoison_gangs (s : State) (a : Nat) (b : Bool) : (s.setPoison a b).gangs = s.gangs := rfl
@[simp] theorem State.setPoison_subs (s : State) (a : Nat) (b : Bool) : (s.setPoison a b).subs = s.subs := rfl
@[simp] theorem State.setPoison_trapStop (s : State) (a : Nat) (b : Bool) : (s.setPoison a b).trapStop = s.trapStop := rfl
@[simp] theorem State.setPoison_tim (s : State) (a : Nat) (b : Bool) : (s.setPoison a b).tim = s.tim := rfl
@[simp] theorem State.setPoison_fab (s : State) (a : Nat) (b : Bool) : (s.setPoison a b).fab = s.fab := rfl
@[simp] theorem State.setPoison_jobs (s : State) (a : Nat) (b : Bool) : (s.setPoison a b).jobs = s.jobs := rfl
@[simp] theorem State.setPoison_ckw (s : State) (a : Nat) (b : Bool) : (s.setPoison a b).ckw = s.ckw := rfl
@[simp] theorem State.setPoison_flt (s : State) (a : Nat) (b : Bool) : (s.setPoison a b).flt = s.flt := rfl
@[simp] theorem State.setPoison_pwr (s : State) (a : Nat) (b : Bool) : (s.setPoison a b).pwr = s.pwr := rfl
@[simp] theorem State.setPoison_engines (s : State) (a : Nat) (b : Bool) : (s.setPoison a b).engines = s.engines := rfl
@[simp] theorem State.setPoison_pending (s : State) (a : Nat) (b : Bool) : (s.setPoison a b).pending = s.pending := rfl

/-! setLeaf. -/

@[simp] theorem State.setLeaf_clk (s : State) (p slot va w : Nat) : (s.setLeaf p slot va w).clk = s.clk := rfl
@[simp] theorem State.setLeaf_free (s : State) (p slot va w : Nat) : (s.setLeaf p slot va w).free = s.free := rfl
@[simp] theorem State.setLeaf_uid (s : State) (p slot va w : Nat) : (s.setLeaf p slot va w).uid = s.uid := rfl
@[simp] theorem State.setLeaf_rst (s : State) (p slot va w : Nat) : (s.setLeaf p slot va w).rst = s.rst := rfl
@[simp] theorem State.setLeaf_foreignWr (s : State) (p slot va w : Nat) : (s.setLeaf p slot va w).foreignWr = s.foreignWr := rfl
@[simp] theorem State.setLeaf_fns (s : State) (p slot va w : Nat) : (s.setLeaf p slot va w).fns = s.fns := rfl
@[simp] theorem State.setLeaf_ports (s : State) (p slot va w : Nat) : (s.setLeaf p slot va w).ports = s.ports := rfl
@[simp] theorem State.setLeaf_binds (s : State) (p slot va w : Nat) : (s.setLeaf p slot va w).binds = s.binds := rfl
@[simp] theorem State.setLeaf_srv (s : State) (p slot va w : Nat) : (s.setLeaf p slot va w).srv = s.srv := rfl
@[simp] theorem State.setLeaf_flash (s : State) (p slot va w : Nat) : (s.setLeaf p slot va w).flash = s.flash := rfl
@[simp] theorem State.setLeaf_dpt (s : State) (p slot va w : Nat) : (s.setLeaf p slot va w).dpt = s.dpt := rfl
@[simp] theorem State.setLeaf_cores (s : State) (p slot va w : Nat) : (s.setLeaf p slot va w).cores = s.cores := rfl
@[simp] theorem State.setLeaf_gangs (s : State) (p slot va w : Nat) : (s.setLeaf p slot va w).gangs = s.gangs := rfl
@[simp] theorem State.setLeaf_subs (s : State) (p slot va w : Nat) : (s.setLeaf p slot va w).subs = s.subs := rfl
@[simp] theorem State.setLeaf_trapStop (s : State) (p slot va w : Nat) : (s.setLeaf p slot va w).trapStop = s.trapStop := rfl
@[simp] theorem State.setLeaf_mem (s : State) (p slot va w : Nat) : (s.setLeaf p slot va w).mem = s.mem := rfl
@[simp] theorem State.setLeaf_tim (s : State) (p slot va w : Nat) : (s.setLeaf p slot va w).tim = s.tim := rfl
@[simp] theorem State.setLeaf_fab (s : State) (p slot va w : Nat) : (s.setLeaf p slot va w).fab = s.fab := rfl
@[simp] theorem State.setLeaf_jobs (s : State) (p slot va w : Nat) : (s.setLeaf p slot va w).jobs = s.jobs := rfl
@[simp] theorem State.setLeaf_ckw (s : State) (p slot va w : Nat) : (s.setLeaf p slot va w).ckw = s.ckw := rfl
@[simp] theorem State.setLeaf_flt (s : State) (p slot va w : Nat) : (s.setLeaf p slot va w).flt = s.flt := rfl
@[simp] theorem State.setLeaf_pwr (s : State) (p slot va w : Nat) : (s.setLeaf p slot va w).pwr = s.pwr := rfl
@[simp] theorem State.setLeaf_engines (s : State) (p slot va w : Nat) : (s.setLeaf p slot va w).engines = s.engines := rfl
@[simp] theorem State.setLeaf_pending (s : State) (p slot va w : Nat) : (s.setLeaf p slot va w).pending = s.pending := rfl

/-! fail. -/

@[simp] theorem State.fail_clk (s : State) (p k c a i : Nat) : (s.fail p k c a i).clk = s.clk := rfl
@[simp] theorem State.fail_free (s : State) (p k c a i : Nat) : (s.fail p k c a i).free = s.free := rfl
@[simp] theorem State.fail_uid (s : State) (p k c a i : Nat) : (s.fail p k c a i).uid = s.uid := rfl
@[simp] theorem State.fail_rst (s : State) (p k c a i : Nat) : (s.fail p k c a i).rst = s.rst := rfl
@[simp] theorem State.fail_foreignWr (s : State) (p k c a i : Nat) : (s.fail p k c a i).foreignWr = s.foreignWr := rfl
@[simp] theorem State.fail_fns (s : State) (p k c a i : Nat) : (s.fail p k c a i).fns = s.fns := rfl
@[simp] theorem State.fail_ports (s : State) (p k c a i : Nat) : (s.fail p k c a i).ports = s.ports := rfl
@[simp] theorem State.fail_binds (s : State) (p k c a i : Nat) : (s.fail p k c a i).binds = s.binds := rfl
@[simp] theorem State.fail_srv (s : State) (p k c a i : Nat) : (s.fail p k c a i).srv = s.srv := rfl
@[simp] theorem State.fail_flash (s : State) (p k c a i : Nat) : (s.fail p k c a i).flash = s.flash := rfl
@[simp] theorem State.fail_dpt (s : State) (p k c a i : Nat) : (s.fail p k c a i).dpt = s.dpt := rfl
@[simp] theorem State.fail_cores (s : State) (p k c a i : Nat) : (s.fail p k c a i).cores = s.cores := rfl
@[simp] theorem State.fail_gangs (s : State) (p k c a i : Nat) : (s.fail p k c a i).gangs = s.gangs := rfl
@[simp] theorem State.fail_subs (s : State) (p k c a i : Nat) : (s.fail p k c a i).subs = s.subs := rfl
@[simp] theorem State.fail_trapStop (s : State) (p k c a i : Nat) : (s.fail p k c a i).trapStop = s.trapStop := rfl
@[simp] theorem State.fail_mem (s : State) (p k c a i : Nat) : (s.fail p k c a i).mem = s.mem := rfl
@[simp] theorem State.fail_tim (s : State) (p k c a i : Nat) : (s.fail p k c a i).tim = s.tim := rfl
@[simp] theorem State.fail_fab (s : State) (p k c a i : Nat) : (s.fail p k c a i).fab = s.fab := rfl
@[simp] theorem State.fail_jobs (s : State) (p k c a i : Nat) : (s.fail p k c a i).jobs = s.jobs := rfl
@[simp] theorem State.fail_ckw (s : State) (p k c a i : Nat) : (s.fail p k c a i).ckw = s.ckw := rfl
@[simp] theorem State.fail_flt (s : State) (p k c a i : Nat) : (s.fail p k c a i).flt = s.flt := rfl
@[simp] theorem State.fail_pwr (s : State) (p k c a i : Nat) : (s.fail p k c a i).pwr = s.pwr := rfl
@[simp] theorem State.fail_engines (s : State) (p k c a i : Nat) : (s.fail p k c a i).engines = s.engines := rfl
@[simp] theorem State.fail_pending (s : State) (p k c a i : Nat) : (s.fail p k c a i).pending = s.pending := rfl

/-! await. -/

@[simp] theorem State.await_clk (s : State) (p k : Nat) (w : CmdWait) : (s.await p k w).clk = s.clk := rfl
@[simp] theorem State.await_free (s : State) (p k : Nat) (w : CmdWait) : (s.await p k w).free = s.free := rfl
@[simp] theorem State.await_uid (s : State) (p k : Nat) (w : CmdWait) : (s.await p k w).uid = s.uid := rfl
@[simp] theorem State.await_rst (s : State) (p k : Nat) (w : CmdWait) : (s.await p k w).rst = s.rst := rfl
@[simp] theorem State.await_foreignWr (s : State) (p k : Nat) (w : CmdWait) : (s.await p k w).foreignWr = s.foreignWr := rfl
@[simp] theorem State.await_fns (s : State) (p k : Nat) (w : CmdWait) : (s.await p k w).fns = s.fns := rfl
@[simp] theorem State.await_ports (s : State) (p k : Nat) (w : CmdWait) : (s.await p k w).ports = s.ports := rfl
@[simp] theorem State.await_binds (s : State) (p k : Nat) (w : CmdWait) : (s.await p k w).binds = s.binds := rfl
@[simp] theorem State.await_srv (s : State) (p k : Nat) (w : CmdWait) : (s.await p k w).srv = s.srv := rfl
@[simp] theorem State.await_flash (s : State) (p k : Nat) (w : CmdWait) : (s.await p k w).flash = s.flash := rfl
@[simp] theorem State.await_dpt (s : State) (p k : Nat) (w : CmdWait) : (s.await p k w).dpt = s.dpt := rfl
@[simp] theorem State.await_cores (s : State) (p k : Nat) (w : CmdWait) : (s.await p k w).cores = s.cores := rfl
@[simp] theorem State.await_gangs (s : State) (p k : Nat) (w : CmdWait) : (s.await p k w).gangs = s.gangs := rfl
@[simp] theorem State.await_subs (s : State) (p k : Nat) (w : CmdWait) : (s.await p k w).subs = s.subs := rfl
@[simp] theorem State.await_trapStop (s : State) (p k : Nat) (w : CmdWait) : (s.await p k w).trapStop = s.trapStop := rfl
@[simp] theorem State.await_mem (s : State) (p k : Nat) (w : CmdWait) : (s.await p k w).mem = s.mem := rfl
@[simp] theorem State.await_tim (s : State) (p k : Nat) (w : CmdWait) : (s.await p k w).tim = s.tim := rfl
@[simp] theorem State.await_fab (s : State) (p k : Nat) (w : CmdWait) : (s.await p k w).fab = s.fab := rfl
@[simp] theorem State.await_jobs (s : State) (p k : Nat) (w : CmdWait) : (s.await p k w).jobs = s.jobs := rfl
@[simp] theorem State.await_ckw (s : State) (p k : Nat) (w : CmdWait) : (s.await p k w).ckw = s.ckw := rfl
@[simp] theorem State.await_flt (s : State) (p k : Nat) (w : CmdWait) : (s.await p k w).flt = s.flt := rfl
@[simp] theorem State.await_pwr (s : State) (p k : Nat) (w : CmdWait) : (s.await p k w).pwr = s.pwr := rfl
@[simp] theorem State.await_engines (s : State) (p k : Nat) (w : CmdWait) : (s.await p k w).engines = s.engines := rfl
@[simp] theorem State.await_pending (s : State) (p k : Nat) (w : CmdWait) : (s.await p k w).pending = s.pending := rfl

/-! devWrite1. -/

@[simp] theorem State.devWrite1_clk (s : State) (a : Nat) (d : List Byte) : (s.devWrite1 a d).clk = s.clk := by
  unfold State.devWrite1; split; · rfl
  dsimp only; split; · rfl
  split <;> rfl
@[simp] theorem State.devWrite1_free (s : State) (a : Nat) (d : List Byte) : (s.devWrite1 a d).free = s.free := by
  unfold State.devWrite1; split; · rfl
  dsimp only; split; · rfl
  split <;> rfl
@[simp] theorem State.devWrite1_uid (s : State) (a : Nat) (d : List Byte) : (s.devWrite1 a d).uid = s.uid := by
  unfold State.devWrite1; split; · rfl
  dsimp only; split; · rfl
  split <;> rfl
@[simp] theorem State.devWrite1_rst (s : State) (a : Nat) (d : List Byte) : (s.devWrite1 a d).rst = s.rst := by
  unfold State.devWrite1; split; · rfl
  dsimp only; split; · rfl
  split <;> rfl
@[simp] theorem State.devWrite1_foreignWr (s : State) (a : Nat) (d : List Byte) : (s.devWrite1 a d).foreignWr = s.foreignWr := by
  unfold State.devWrite1; split; · rfl
  dsimp only; split; · rfl
  split <;> rfl
@[simp] theorem State.devWrite1_fns (s : State) (a : Nat) (d : List Byte) : (s.devWrite1 a d).fns = s.fns := by
  unfold State.devWrite1; split; · rfl
  dsimp only; split; · rfl
  split <;> rfl
@[simp] theorem State.devWrite1_ports (s : State) (a : Nat) (d : List Byte) : (s.devWrite1 a d).ports = s.ports := by
  unfold State.devWrite1; split; · rfl
  dsimp only; split; · rfl
  split <;> rfl
@[simp] theorem State.devWrite1_binds (s : State) (a : Nat) (d : List Byte) : (s.devWrite1 a d).binds = s.binds := by
  unfold State.devWrite1; split; · rfl
  dsimp only; split; · rfl
  split <;> rfl
@[simp] theorem State.devWrite1_srv (s : State) (a : Nat) (d : List Byte) : (s.devWrite1 a d).srv = s.srv := by
  unfold State.devWrite1; split; · rfl
  dsimp only; split; · rfl
  split <;> rfl
@[simp] theorem State.devWrite1_flash (s : State) (a : Nat) (d : List Byte) : (s.devWrite1 a d).flash = s.flash := by
  unfold State.devWrite1; split; · rfl
  dsimp only; split; · rfl
  split <;> rfl
@[simp] theorem State.devWrite1_dpt (s : State) (a : Nat) (d : List Byte) : (s.devWrite1 a d).dpt = s.dpt := by
  unfold State.devWrite1; split; · rfl
  dsimp only; split; · rfl
  split <;> rfl
@[simp] theorem State.devWrite1_parts (s : State) (a : Nat) (d : List Byte) : (s.devWrite1 a d).parts = s.parts := by
  unfold State.devWrite1; split; · rfl
  dsimp only; split; · rfl
  split <;> rfl
@[simp] theorem State.devWrite1_cores (s : State) (a : Nat) (d : List Byte) : (s.devWrite1 a d).cores = s.cores := by
  unfold State.devWrite1; split; · rfl
  dsimp only; split; · rfl
  split <;> rfl
@[simp] theorem State.devWrite1_gangs (s : State) (a : Nat) (d : List Byte) : (s.devWrite1 a d).gangs = s.gangs := by
  unfold State.devWrite1; split; · rfl
  dsimp only; split; · rfl
  split <;> rfl
@[simp] theorem State.devWrite1_subs (s : State) (a : Nat) (d : List Byte) : (s.devWrite1 a d).subs = s.subs := by
  unfold State.devWrite1; split; · rfl
  dsimp only; split; · rfl
  split <;> rfl
@[simp] theorem State.devWrite1_trapStop (s : State) (a : Nat) (d : List Byte) : (s.devWrite1 a d).trapStop = s.trapStop := by
  unfold State.devWrite1; split; · rfl
  dsimp only; split; · rfl
  split <;> rfl
@[simp] theorem State.devWrite1_tim (s : State) (a : Nat) (d : List Byte) : (s.devWrite1 a d).tim = s.tim := by
  unfold State.devWrite1; split; · rfl
  dsimp only; split; · rfl
  split <;> rfl
@[simp] theorem State.devWrite1_fab (s : State) (a : Nat) (d : List Byte) : (s.devWrite1 a d).fab = s.fab := by
  unfold State.devWrite1; split; · rfl
  dsimp only; split; · rfl
  split <;> rfl
@[simp] theorem State.devWrite1_jobs (s : State) (a : Nat) (d : List Byte) : (s.devWrite1 a d).jobs = s.jobs := by
  unfold State.devWrite1; split; · rfl
  dsimp only; split; · rfl
  split <;> rfl
@[simp] theorem State.devWrite1_ckw (s : State) (a : Nat) (d : List Byte) : (s.devWrite1 a d).ckw = s.ckw := by
  unfold State.devWrite1; split; · rfl
  dsimp only; split; · rfl
  split <;> rfl
@[simp] theorem State.devWrite1_flt (s : State) (a : Nat) (d : List Byte) : (s.devWrite1 a d).flt = s.flt := by
  unfold State.devWrite1; split; · rfl
  dsimp only; split; · rfl
  split <;> rfl
@[simp] theorem State.devWrite1_pwr (s : State) (a : Nat) (d : List Byte) : (s.devWrite1 a d).pwr = s.pwr := by
  unfold State.devWrite1; split; · rfl
  dsimp only; split; · rfl
  split <;> rfl
@[simp] theorem State.devWrite1_engines (s : State) (a : Nat) (d : List Byte) : (s.devWrite1 a d).engines = s.engines := by
  unfold State.devWrite1; split; · rfl
  dsimp only; split; · rfl
  split <;> rfl
@[simp] theorem State.devWrite1_pending (s : State) (a : Nat) (d : List Byte) : (s.devWrite1 a d).pending = s.pending := by
  unfold State.devWrite1; split; · rfl
  dsimp only; split; · rfl
  split <;> rfl

/-! devWrite. -/

@[simp] theorem State.devWrite_clk (s : State) (a : Nat) (d : List Byte) : (s.devWrite a d).clk = s.clk := by
  unfold State.devWrite; split <;> simp
@[simp] theorem State.devWrite_free (s : State) (a : Nat) (d : List Byte) : (s.devWrite a d).free = s.free := by
  unfold State.devWrite; split <;> simp
@[simp] theorem State.devWrite_uid (s : State) (a : Nat) (d : List Byte) : (s.devWrite a d).uid = s.uid := by
  unfold State.devWrite; split <;> simp
@[simp] theorem State.devWrite_rst (s : State) (a : Nat) (d : List Byte) : (s.devWrite a d).rst = s.rst := by
  unfold State.devWrite; split <;> simp
@[simp] theorem State.devWrite_foreignWr (s : State) (a : Nat) (d : List Byte) : (s.devWrite a d).foreignWr = s.foreignWr := by
  unfold State.devWrite; split <;> simp
@[simp] theorem State.devWrite_fns (s : State) (a : Nat) (d : List Byte) : (s.devWrite a d).fns = s.fns := by
  unfold State.devWrite; split <;> simp
@[simp] theorem State.devWrite_ports (s : State) (a : Nat) (d : List Byte) : (s.devWrite a d).ports = s.ports := by
  unfold State.devWrite; split <;> simp
@[simp] theorem State.devWrite_binds (s : State) (a : Nat) (d : List Byte) : (s.devWrite a d).binds = s.binds := by
  unfold State.devWrite; split <;> simp
@[simp] theorem State.devWrite_srv (s : State) (a : Nat) (d : List Byte) : (s.devWrite a d).srv = s.srv := by
  unfold State.devWrite; split <;> simp
@[simp] theorem State.devWrite_flash (s : State) (a : Nat) (d : List Byte) : (s.devWrite a d).flash = s.flash := by
  unfold State.devWrite; split <;> simp
@[simp] theorem State.devWrite_dpt (s : State) (a : Nat) (d : List Byte) : (s.devWrite a d).dpt = s.dpt := by
  unfold State.devWrite; split <;> simp
@[simp] theorem State.devWrite_parts (s : State) (a : Nat) (d : List Byte) : (s.devWrite a d).parts = s.parts := by
  unfold State.devWrite; split <;> simp
@[simp] theorem State.devWrite_cores (s : State) (a : Nat) (d : List Byte) : (s.devWrite a d).cores = s.cores := by
  unfold State.devWrite; split <;> simp
@[simp] theorem State.devWrite_gangs (s : State) (a : Nat) (d : List Byte) : (s.devWrite a d).gangs = s.gangs := by
  unfold State.devWrite; split <;> simp
@[simp] theorem State.devWrite_subs (s : State) (a : Nat) (d : List Byte) : (s.devWrite a d).subs = s.subs := by
  unfold State.devWrite; split <;> simp
@[simp] theorem State.devWrite_trapStop (s : State) (a : Nat) (d : List Byte) : (s.devWrite a d).trapStop = s.trapStop := by
  unfold State.devWrite; split <;> simp
@[simp] theorem State.devWrite_tim (s : State) (a : Nat) (d : List Byte) : (s.devWrite a d).tim = s.tim := by
  unfold State.devWrite; split <;> simp
@[simp] theorem State.devWrite_fab (s : State) (a : Nat) (d : List Byte) : (s.devWrite a d).fab = s.fab := by
  unfold State.devWrite; split <;> simp
@[simp] theorem State.devWrite_jobs (s : State) (a : Nat) (d : List Byte) : (s.devWrite a d).jobs = s.jobs := by
  unfold State.devWrite; split <;> simp
@[simp] theorem State.devWrite_ckw (s : State) (a : Nat) (d : List Byte) : (s.devWrite a d).ckw = s.ckw := by
  unfold State.devWrite; split <;> simp
@[simp] theorem State.devWrite_flt (s : State) (a : Nat) (d : List Byte) : (s.devWrite a d).flt = s.flt := by
  unfold State.devWrite; split <;> simp
@[simp] theorem State.devWrite_pwr (s : State) (a : Nat) (d : List Byte) : (s.devWrite a d).pwr = s.pwr := by
  unfold State.devWrite; split <;> simp
@[simp] theorem State.devWrite_engines (s : State) (a : Nat) (d : List Byte) : (s.devWrite a d).engines = s.engines := by
  unfold State.devWrite; split <;> simp
@[simp] theorem State.devWrite_pending (s : State) (a : Nat) (d : List Byte) : (s.devWrite a d).pending = s.pending := by
  unfold State.devWrite; split <;> simp

/-! send. -/

@[simp] theorem State.send_clk (s : State) (i : Nat) (m : HostTx) : (s.send i m).clk = s.clk := by
  unfold State.send; split <;> rfl
@[simp] theorem State.send_free (s : State) (i : Nat) (m : HostTx) : (s.send i m).free = s.free := by
  unfold State.send; split <;> rfl
@[simp] theorem State.send_uid (s : State) (i : Nat) (m : HostTx) : (s.send i m).uid = s.uid := by
  unfold State.send; split <;> rfl
@[simp] theorem State.send_rst (s : State) (i : Nat) (m : HostTx) : (s.send i m).rst = s.rst := by
  unfold State.send; split <;> rfl
@[simp] theorem State.send_foreignWr (s : State) (i : Nat) (m : HostTx) : (s.send i m).foreignWr = s.foreignWr := by
  unfold State.send; split <;> rfl
@[simp] theorem State.send_fns (s : State) (i : Nat) (m : HostTx) : (s.send i m).fns = s.fns := by
  unfold State.send; split <;> rfl
@[simp] theorem State.send_binds (s : State) (i : Nat) (m : HostTx) : (s.send i m).binds = s.binds := by
  unfold State.send; split <;> rfl
@[simp] theorem State.send_srv (s : State) (i : Nat) (m : HostTx) : (s.send i m).srv = s.srv := by
  unfold State.send; split <;> rfl
@[simp] theorem State.send_flash (s : State) (i : Nat) (m : HostTx) : (s.send i m).flash = s.flash := by
  unfold State.send; split <;> rfl
@[simp] theorem State.send_dpt (s : State) (i : Nat) (m : HostTx) : (s.send i m).dpt = s.dpt := by
  unfold State.send; split <;> rfl
@[simp] theorem State.send_parts (s : State) (i : Nat) (m : HostTx) : (s.send i m).parts = s.parts := by
  unfold State.send; split <;> rfl
@[simp] theorem State.send_cores (s : State) (i : Nat) (m : HostTx) : (s.send i m).cores = s.cores := by
  unfold State.send; split <;> rfl
@[simp] theorem State.send_gangs (s : State) (i : Nat) (m : HostTx) : (s.send i m).gangs = s.gangs := by
  unfold State.send; split <;> rfl
@[simp] theorem State.send_subs (s : State) (i : Nat) (m : HostTx) : (s.send i m).subs = s.subs := by
  unfold State.send; split <;> rfl
@[simp] theorem State.send_trapStop (s : State) (i : Nat) (m : HostTx) : (s.send i m).trapStop = s.trapStop := by
  unfold State.send; split <;> rfl
@[simp] theorem State.send_mem (s : State) (i : Nat) (m : HostTx) : (s.send i m).mem = s.mem := by
  unfold State.send; split <;> rfl
@[simp] theorem State.send_tim (s : State) (i : Nat) (m : HostTx) : (s.send i m).tim = s.tim := by
  unfold State.send; split <;> rfl
@[simp] theorem State.send_fab (s : State) (i : Nat) (m : HostTx) : (s.send i m).fab = s.fab := by
  unfold State.send; split <;> rfl
@[simp] theorem State.send_jobs (s : State) (i : Nat) (m : HostTx) : (s.send i m).jobs = s.jobs := by
  unfold State.send; split <;> rfl
@[simp] theorem State.send_ckw (s : State) (i : Nat) (m : HostTx) : (s.send i m).ckw = s.ckw := by
  unfold State.send; split <;> rfl
@[simp] theorem State.send_flt (s : State) (i : Nat) (m : HostTx) : (s.send i m).flt = s.flt := by
  unfold State.send; split <;> rfl
@[simp] theorem State.send_pwr (s : State) (i : Nat) (m : HostTx) : (s.send i m).pwr = s.pwr := by
  unfold State.send; split <;> rfl
@[simp] theorem State.send_engines (s : State) (i : Nat) (m : HostTx) : (s.send i m).engines = s.engines := by
  unfold State.send; split <;> rfl
@[simp] theorem State.send_pending (s : State) (i : Nat) (m : HostTx) : (s.send i m).pending = s.pending := by
  unfold State.send; split <;> rfl

/-! pitWrite. -/

@[simp] theorem State.pitWrite_clk (s : State) (r : PitRec) : (s.pitWrite r).clk = s.clk := by
  unfold State.pitWrite; dsimp only; split <;> rfl
@[simp] theorem State.pitWrite_free (s : State) (r : PitRec) : (s.pitWrite r).free = s.free := by
  unfold State.pitWrite; dsimp only; split <;> rfl
@[simp] theorem State.pitWrite_uid (s : State) (r : PitRec) : (s.pitWrite r).uid = s.uid := by
  unfold State.pitWrite; dsimp only; split <;> rfl
@[simp] theorem State.pitWrite_rst (s : State) (r : PitRec) : (s.pitWrite r).rst = s.rst := by
  unfold State.pitWrite; dsimp only; split <;> rfl
@[simp] theorem State.pitWrite_foreignWr (s : State) (r : PitRec) : (s.pitWrite r).foreignWr = s.foreignWr := by
  unfold State.pitWrite; dsimp only; split <;> rfl
@[simp] theorem State.pitWrite_fns (s : State) (r : PitRec) : (s.pitWrite r).fns = s.fns := by
  unfold State.pitWrite; dsimp only; split <;> rfl
@[simp] theorem State.pitWrite_ports (s : State) (r : PitRec) : (s.pitWrite r).ports = s.ports := by
  unfold State.pitWrite; dsimp only; split <;> rfl
@[simp] theorem State.pitWrite_binds (s : State) (r : PitRec) : (s.pitWrite r).binds = s.binds := by
  unfold State.pitWrite; dsimp only; split <;> rfl
@[simp] theorem State.pitWrite_srv (s : State) (r : PitRec) : (s.pitWrite r).srv = s.srv := by
  unfold State.pitWrite; dsimp only; split <;> rfl
@[simp] theorem State.pitWrite_dpt (s : State) (r : PitRec) : (s.pitWrite r).dpt = s.dpt := by
  unfold State.pitWrite; dsimp only; split <;> rfl
@[simp] theorem State.pitWrite_parts (s : State) (r : PitRec) : (s.pitWrite r).parts = s.parts := by
  unfold State.pitWrite; dsimp only; split <;> rfl
@[simp] theorem State.pitWrite_cores (s : State) (r : PitRec) : (s.pitWrite r).cores = s.cores := by
  unfold State.pitWrite; dsimp only; split <;> rfl
@[simp] theorem State.pitWrite_gangs (s : State) (r : PitRec) : (s.pitWrite r).gangs = s.gangs := by
  unfold State.pitWrite; dsimp only; split <;> rfl
@[simp] theorem State.pitWrite_subs (s : State) (r : PitRec) : (s.pitWrite r).subs = s.subs := by
  unfold State.pitWrite; dsimp only; split <;> rfl
@[simp] theorem State.pitWrite_trapStop (s : State) (r : PitRec) : (s.pitWrite r).trapStop = s.trapStop := by
  unfold State.pitWrite; dsimp only; split <;> rfl
@[simp] theorem State.pitWrite_mem (s : State) (r : PitRec) : (s.pitWrite r).mem = s.mem := by
  unfold State.pitWrite; dsimp only; split <;> rfl
@[simp] theorem State.pitWrite_tim (s : State) (r : PitRec) : (s.pitWrite r).tim = s.tim := by
  unfold State.pitWrite; dsimp only; split <;> rfl
@[simp] theorem State.pitWrite_fab (s : State) (r : PitRec) : (s.pitWrite r).fab = s.fab := by
  unfold State.pitWrite; dsimp only; split <;> rfl
@[simp] theorem State.pitWrite_jobs (s : State) (r : PitRec) : (s.pitWrite r).jobs = s.jobs := by
  unfold State.pitWrite; dsimp only; split <;> rfl
@[simp] theorem State.pitWrite_ckw (s : State) (r : PitRec) : (s.pitWrite r).ckw = s.ckw := by
  unfold State.pitWrite; dsimp only; split <;> rfl
@[simp] theorem State.pitWrite_pwr (s : State) (r : PitRec) : (s.pitWrite r).pwr = s.pwr := by
  unfold State.pitWrite; dsimp only; split <;> rfl
@[simp] theorem State.pitWrite_engines (s : State) (r : PitRec) : (s.pitWrite r).engines = s.engines := by
  unfold State.pitWrite; dsimp only; split <;> rfl
@[simp] theorem State.pitWrite_pending (s : State) (r : PitRec) : (s.pitWrite r).pending = s.pending := by
  unfold State.pitWrite; dsimp only; split <;> rfl

/-! What the operations do. -/

/-- A failed command waits for nothing more, with its code (R292). -/
@[simp] theorem State.fail_cmd (s : State) (p k c a i : Nat) :
    (s.fail p k c a i).cmd p k = { s.cmd p k with wait := .done, code := c, addr := a, info := i } := by
  simp [State.fail, State.cmd, State.updCmd]
@[simp] theorem State.await_cmd (s : State) (p k : Nat) (w : CmdWait) : (s.await p k w).cmd p k = { s.cmd p k with wait := w } := by
  simp [State.await, State.cmd, State.updCmd]
theorem State.await_cmd_other (s : State) (p : Nat) {k j : Nat} (w : CmdWait) (h : j ≠ k) : (s.await p k w).cmd p j = s.cmd p j := by
  simp [State.await, State.cmd, State.updCmd, Tab.get_upd_other _ _ _ h]
theorem State.fail_cmd_other (s : State) (p : Nat) {k j : Nat} (c a i : Nat) (h : j ≠ k) : (s.fail p k c a i).cmd p j = s.cmd p j := by
  simp [State.fail, State.cmd, State.updCmd, Tab.get_upd_other _ _ _ h]
@[simp] theorem State.fail_ring (s : State) (p k c a i n : Nat) : (s.fail p k c a i).ring p n = s.ring p n := by
  simp [State.fail, State.ring, State.updCmd]
@[simp] theorem State.await_ring (s : State) (p k : Nat) (w : CmdWait) (n : Nat) : (s.await p k w).ring p n = s.ring p n := by
  simp [State.await, State.ring, State.updCmd]

/-- A write at one copy changes the bytes that it names, and no others, unless its channel is dead (R225). -/
theorem State.devWrite1_dev (s : State) (a : Nat) (d : List Byte) :
    (s.devWrite1 a d).mem.dev = if s.deadAt a then s.mem.dev else s.mem.dev.write a d := by
  unfold State.devWrite1
  split
  · rfl
  · dsimp only
    split
    · rfl
    · split <;> rfl

theorem State.devWrite1_ws (s : State) (a : Nat) (d : List Byte) : (s.devWrite1 a d).mem.ws = s.mem.ws := by
  unfold State.devWrite1
  split
  · rfl
  · dsimp only
    split
    · rfl
    · split <;> rfl

theorem State.devWrite1_l2s (s : State) (a : Nat) (d : List Byte) : (s.devWrite1 a d).mem.l2s = s.mem.l2s := by
  unfold State.devWrite1
  split
  · rfl
  · dsimp only
    split
    · rfl
    · split <;> rfl

theorem State.memOk_devWrite1 (s : State) (a : Nat) (d : List Byte) (h : s.memOk = true) : (s.devWrite1 a d).memOk = true := by
  simp only [State.memOk, Bool.and_eq_true] at h ⊢
  obtain ⟨⟨⟨h1, h2⟩, h3⟩, h4⟩ := h
  refine ⟨⟨⟨?_, ?_⟩, ?_⟩, ?_⟩
  · rw [State.devWrite1_dev]; split
    · exact h1
    · exact Memory.wf_write _ _ _ h1
  · rw [State.devWrite1_ws]; exact h2
  · rw [State.devWrite1_l2s]; exact h3
  · simpa using h4

/-- Writes to device memory keep every memory in canonical form. -/
theorem State.memOk_devWrite (s : State) (a : Nat) (d : List Byte) (h : s.memOk = true) : (s.devWrite a d).memOk = true := by
  unfold State.devWrite
  split
  · exact State.memOk_devWrite1 _ _ _ (State.memOk_devWrite1 _ _ _ h)
  · exact State.memOk_devWrite1 _ _ _ h

/-- A port that is READY sends the message last; another sends nothing (R405). -/
theorem State.send_out (s : State) (i : Nat) (m : HostTx) :
    ((s.send i m).port i).out = if (s.port i).dom = .ready then (s.port i).out ++ [m] else (s.port i).out := by
  unfold State.send
  by_cases h : (s.port i).dom = .ready <;> simp [h]

/-- A record is the newest, under the next SEQ, and SEQ moves on (R485). -/
theorem State.pitWrite_newest (s : State) (r : PitRec) :
    (s.pitWrite r).flash.pit.getLast? = some { r with sq := s.flash.pitSeq } ∧ (s.pitWrite r).flash.pitSeq = s.flash.pitSeq + 1 := by
  unfold State.pitWrite
  dsimp only
  split <;> simp

end Sys2Proof.Machine
end

