-- ==== Sys2Proof/WellFormed.lean ====
section
/-!
DEFINITION. Which commands are well formed: every operand lies in the range that the spec gives what it names. The meanings are total
all the same: what names nothing changes nothing.
-/

namespace Sys2Proof

/-- 576 cores of 64 gang slots (R11). -/
def gangOk (g : Nat) : Bool := decide (g < 36864)
def coreOk (c : Nat) : Bool := decide (c < 576)
/-- Two ports of 16 functions (R399), JTAG and the Pithead. -/
def fnOk (q : Nat) : Bool := decide (q < 34)
def partOk (p : Nat) : Bool := decide (p < 16)
/-- Ring levels 0 to 7 (R284). -/
def levelOk (n : Nat) : Bool := decide (n < 8)
def hostPortOk (i : Nat) : Bool := decide (i < 2)
def fabPortOk (i : Nat) : Bool := decide (i < 32)
def tierOk (t : Nat) : Bool := decide (t < 4)
/-- An offset in BAR0, 64 MiB (R18). -/
def offsetOk (o : Nat) : Bool := decide (o < 67108864)
def sizeOk (n : Nat) : Bool := n == 1 || n == 2 || n == 4 || n == 8
/-- Coherent agents 0 to 88 and a line of device memory (R199, R259). -/
def agentOk (a line : Nat) : Bool := decide (a < 89) && decide (line < 8589934592)
/-- A command's bytes: whole slots of 64 bytes (R291). -/
def slotsOk (c : List Byte) : Bool := decide (64 ≤ c.length) && c.length % 64 == 0

/-- A symbol of one of a line's eight codewords (R211). -/
def Flip.ok (f : Flip) : Bool := decide (f.cw < 8) && decide (f.sym < 36) && decide (f.err < 16)
def Poller.ok : Poller → Bool
  | .gang g => gangOk g
  | .cmd p _ => partOk p
def GroupId.ok : GroupId → Bool
  | .ring p n => partOk p && levelOk n
  | .sump p => partOk p
  | .fault p => partOk p
  | .energy p => partOk p
  | .seam p i => partOk p && decide (i < 256)
  | .adit p a => partOk p && decide (a < 256)
  | .cadence => true
def HostReq.ok (r : HostReq) : Bool := hostPortOk r.port && decide (r.fn < 16) && decide (r.rid < 65536)
def AditReq.ok (m : AditReq) : Bool := decide (m.src < 16384) && decide (m.window < 256)
def AditRsp.ok (m : AditRsp) : Bool := decide (m.tag < 65536)
def RedMsg.ok (m : RedMsg) : Bool := decide (m.job < 4096) && decide (m.rank < 65536) && decide (m.stp < two32)
def Flit.ok (f : Flit) : Bool := decide (f.type < 256) && decide (f.dest < 65536) && decide (f.src < 65536)
/-- Four pools (R436). -/
def Sample.ok (m : Sample) : Bool := m.pj.length == 4
def PaceIn.ok (m : PaceIn) : Bool := m.tiers.length == 4
def Proposal.ok : Proposal → Bool
  | .reseam p _ _ _ => partOk p
  | .addReplica p _ _ _ _ => partOk p
  | .dropReplica p _ _ => partOk p
  | .district p _ cs => partOk p && cs.all coreOk

/-- Well-formed commands. -/
def Instr.wf : Instr → Bool
  | .iadd g _ _ | .isub g _ _ | .imul g _ _ | .imulhiU g _ _ => gangOk g
  | .imulhiS g _ _ | .imad g _ _ | .idivU g _ _ | .idivS g _ _ => gangOk g
  | .iremU g _ _ | .iremS g _ _ | .iminU g _ _ | .iminS g _ _ => gangOk g
  | .imaxU g _ _ | .imaxS g _ _ | .iabs g _ _ | .ineg g _ _ => gangOk g
  | .and g _ _ | .or g _ _ | .xor g _ _ | .not g _ _ => gangOk g
  | .shl g _ _ | .shr g _ _ | .sar g _ _ | .popc g _ _ => gangOk g
  | .clz g _ _ | .brev g _ _ | .mov g _ _ | .shfl g _ _ => gangOk g
  | .laneid g _ _ | .mdescSet g _ _ | .mdescGet g _ _ | .prd g _ _ => gangOk g
  | .pwr g _ _ | .icmpEq g _ _ | .icmpNe g _ _ | .icmpLtU g _ _ => gangOk g
  | .icmpGeU g _ _ | .icmpLtS g _ _ | .icmpGeS g _ _ | .fadd g _ _ => gangOk g
  | .fsub g _ _ | .fmul g _ _ | .ffma g _ _ | .fdiv g _ _ => gangOk g
  | .fsqrt g _ _ | .fmin g _ _ | .fmax g _ _ | .fabs g _ _ => gangOk g
  | .fneg g _ _ | .frcpApprox g _ _ | .frsqApprox g _ _ | .fex2Approx g _ _ => gangOk g
  | .flg2Approx g _ _ | .fsinApprox g _ _ | .fcosApprox g _ _ | .ftanhApprox g _ _ => gangOk g
  | .fcmpEq g _ _ | .fcmpNe g _ _ | .fcmpLt g _ _ | .fcmpLe g _ _ => gangOk g
  | .fcmpGt g _ _ | .fcmpGe g _ _ | .fcmpUnord g _ _ | .fcmpOrd g _ _ => gangOk g
  | .cvtTo g _ _ | .cvtFrom g _ _ | .bra g _ _ | .brx g _ _ => gangOk g
  | .call g _ _ | .callx g _ _ | .ret g _ _ | .exit g _ _ => gangOk g
  | .yield g _ _ | .trap g _ _ | .brk g _ _ => gangOk g
  | .ld g _ _ flips => gangOk g && flips.all Flip.ok
  | .st g _ _ | .atom g _ _ | .ldAcquire g _ _ | .stRelease g _ _ => gangOk g
  | .semAcquire g _ _ | .semRelease g _ _ | .fence g _ _ | .barGang g _ _ => gangOk g
  | .barNamed g _ _ | .cvPush g _ _ | .cvPop g _ _ | .cvPushTry g _ _ => gangOk g
  | .cvPopTry g _ _ | .mfragLoad g _ _ | .mfragStore g _ _ | .mmaStat g _ _ => gangOk g
  | .mmaRun g _ _ | .mmaDrain g _ _ | .timeRd g _ _ | .gstRd g _ _ => gangOk g
  | .gstClr g _ _ | .loadReturn g _ => gangOk g
  | .storeDrain b _ => decide (b < 2304)
  | .loadTimeout g _ => gangOk g
  | .aditStoreTimeout b _ => decide (b < 2304)
  | .semaphorePoll k => k.ok
  | .barrierDeadlock core => coreOk core
  | .kernelTrap g => gangOk g
  | .gangStart p _ g => partOk p && gangOk g
  | .mmaRunComplete core u => coreOk core && decide (u < 16)
  | .halt q => fnOk q
  | .haltComplete g => gangOk g
  | .resume q | .stepGang q _ _ => fnOk q
  | .stepPath q lane _ _ => fnOk q && decide (lane < 32)
  | .stepComplete g => gangOk g
  | .regRead q | .regWrite q | .fault q => fnOk q
  | .dbgLanePcWrite q lane _ => fnOk q && decide (lane < 32)
  | .registerWrite q off size _ | .readClear q off size => fnOk q && offsetOk off && sizeOk size
  | .halfReadLatch q off => fnOk q && offsetOk off
  | .devPartSel q v => fnOk q && decide (v < two32)
  | .validate q | .apply q | .store q | .abort q => fnOk q
  | .surveyValidationEnd _ | .surveyDrainEnd | .surveyApplyEnd | .surveyStoreEnd => true
  | .cmdRingCommit q n => fnOk q && levelOk n
  | .cmdSumpCommit q | .fltRingCommit q | .ckwEringCommit q => fnOk q
  | .plcSeamCommit q i => fnOk q && decide (i < 256)
  | .xltAditCommit q a => fnOk q && decide (a < 256)
  | .timCadCommit q => fnOk q
  | .commitSwap k => k.ok
  | .cmdDoorbell q p n v => fnOk q && partOk p && levelOk n && decide (v < two32)
  | .ringEnable q n _ | .guilty q n | .ringResume q n => fnOk q && levelOk n
  | .cmdSumpHead q v | .fltRingHead q v | .fltDringHead q v | .ckwEringHead q v => fnOk q && decide (v < two32)
  | .timSet q v | .fltPitSel q v => fnOk q && decide (v < two64)
  | .lampCapture q p => fnOk q && partOk p
  | .lampCaptureEnd q => fnOk q
  | .copyRetry q e | .copyAbort q e => fnOk q && decide (e < 64)
  | .portHold q port _ | .retrain q port => fnOk q && fabPortOk port
  | .launch p n c | .graphLaunch p n c | .graphPatch p n c | .copy p n c => partOk p && levelOk n && slotsOk c
  | .copyInline p n c | .fenceSignal p n c | .fenceWait p n c | .cond p n c => partOk p && levelOk n && slotsOk c
  | .loop p n c | .ringCall p n c | .timeWait p n c => partOk p && levelOk n && slotsOk c
  | .timeWaitReached p _ => partOk p
  | .gateWait p n c | .tallyOpen p n c | .tallyClose p n c | .complete p n c => partOk p && levelOk n && slotsOk c
  | .xltInval p n c | .tensor p n c | .release p n c | .stage p n c => partOk p && levelOk n && slotsOk c
  | .conveyor p n c | .regionLoad p n c | .seal p n c | .regionMap p n c => partOk p && levelOk n && slotsOk c
  | .placeQuery p n c | .placePin p n c | .redJoin p n c | .leave p n c => partOk p && levelOk n && slotsOk c
  | .redStep p n c | .lampCheck p n c | .reservedOpcode p n c => partOk p && levelOk n && slotsOk c
  | .commandRetire p _ => partOk p
  | .aditRd m | .aditWr m | .aditAtom m | .aditRsp m => m.ok
  | .agentRequest a line _ | .agentTimeout a line => agentOk a line
  | .refresh pch => decide (pch < 1024)
  | .wcEntryTimeout sl _ => decide (sl < 256)
  | .phyMarginLoss ch | .urgentRetrain ch | .channelHoldEnd ch _ | .channelHoldExpiry ch => decide (ch < 512)
  | .channelTrainingEnd _ | .evaluationTimer => true
  | .crewProposal d => d.ok
  | .moveGroupEnd p _ | .forcedMoveStart p _ => partOk p
  | .ppsEdge _ | .ppsTimeout | .holdoverExpiry | .slewEnd => true
  | .time port _ => fabPortOk port
  | .timeExchangeTimer | .cadencePeriodStart => true
  | .gateOpen k | .go k | .shotBegin k | .shotEnd k => decide (k < 256)
  | .tallyCut k m => decide (k < 256) && m.ok
  | .snapshot k | .stepDeadline k => decide (k < 256)
  | .laneSignalDetect port lanes | .trainComplete port lanes => fabPortOk port && decide (lanes < 256)
  | .trainTimeout port | .discoverTimeout port | .holdTimeout port | .linkLoss port _ => fabPortOk port
  | .frameReplay port | .hello port _ => fabPortOk port
  | .helloTimer => true
  | .lsa port _ => fabPortOk port
  | .lsaTimer | .lsaExpiry _ | .leaderElection => true
  | .assignReq port _ => fabPortOk port
  | .assignReqTimer | .leaderAssignTimer => true
  | .assign port _ => fabPortOk port
  | .reach d | .reachHoldExpiry d => decide (d < 16384)
  | .flitForward port f => fabPortOk port && f.ok
  | .cvData _ | .cvCredit _ => true
  | .cvCreditTimer p _ | .cvResend p _ => partOk p
  | .redPart m | .redSum m | .redParam m | .redVerdict m => m.ok
  | .redDecision m => m.ok
  | .decisionTimeout _ | .noDecisionTimeout _ => true
  | .bar2Read r _ | .bar2Write r _ => r.ok
  | .configRequest port fn _ => hostPortOk port && decide (fn < 16)
  | .hostCompletion port _ _ _ | .perst port | .perstRelease port | .dlDown port => hostPortOk port
  | .hotReset port | .creditTimeout port | .linkRecovery port => hostPortOk port
  | .functionLevelReset q => fnOk q
  | .portReady port _ width _ => hostPortOk port && [1, 2, 4, 8].contains width
  | .fwUpdate q _ | .svnCommit q | .ownerKey q | .retirePage q => fnOk q
  | .claimPrimary q | .debugLock q => fnOk q
  | .mailboxOperationEnd _ _ => true
  | .doeDiscovery port _ | .getVersion port | .getCapabilities port | .negotiateAlgorithms port _ _ => hostPortOk port
  | .getDigests port | .getCertificate port _ _ _ | .challenge port _ _ | .getMeasurements port _ _ _ => hostPortOk port
  | .unlockChallenge => true
  | .unlock b => decide (b.mask < 65536)
  | .crewAccess core _ _ _ _ | .crewHeartbeatMiss core => decide (core < 8)
  | .crewReloadEnd | .deputySelfReset _ | .deputyRestartEnd => true
  | .windowEnd m => m.ok
  | .referenceCheck _ _ => true
  | .autoCut m => m.ok
  | .energyRecordSign p => partOk p
  | .checkweigherSelfReset | .faultHoldRetry | .pitLogWrite | .pitInfo => true
  | .pitRead _ _ _ => true
  | .lampRead p _ _ _ => partOk p
  | .pwrGoodRise _ | .pwrGoodFall | .sysRstNLow _ | .sysRstNHigh => true
  | .railUndervoltage => true
  | .domainRelease b => decide (b.code < 256)
  | .shiftReady | .bootWatchdog | .sequencerSelfReset _ => true
  | .dieFatal t => tierOk t
  | .fullReset q => fnOk q
  | .softwareResetDelay => true
  | .powerDown q => fnOk q
  | .powerDownEnd m _ => m.ok
  | .tierReset q t | .tierForce q t => fnOk q && tierOk t
  | .tierResetEnd t => tierOk t
  | .exitRefuge q => fnOk q
  | .pacingUpdate m => m.ok
  | .thermalTrip sensor => decide (sensor < 96)
  | .vcoreSetpointUpdate t _ | .avsWriteTimeout t _ | .avsRetry t _ => tierOk t
  | .trstN | .extest => true
  | .patrolScrub ch flips => decide (ch < 512) && flips.all Flip.ok
  | .illegalOpcode g _ _ => gangOk g

end Sys2Proof
end

