-- ==== Sys2Proof/Tests/Slice0.lean ====
section
/-!
SUPPORT. Tests: for each hypothesis of a statement a concrete state and operands that meet it, small checks of single steps whose
expected results are read from the spec's rules, and an ill-formed command for each check of well-formedness. A hypothesis on an
uninterpreted function (a signature that verifies, a Survey that validates) is not shown.
-/

open Sys2Proof Sys2Proof.Machine
set_option maxRecDepth 100000
set_option exponentiation.threshold 4096

namespace Sys2Proof.Tests
/-- A Survey: partition 0 of function 0 with all grants, cores 0 to 3, and pool 0 of 1 GiB on channel 0. -/
def svA : Survey := {
  serial := 1
  hash := []
  signReq := false
  ownerKey := 0
  secs := [(1, [1, 0, 0, 7]), (2, leBytes 2 1 ++ leBytes 2 4 ++ leBytes 4 0 ++ leBytes 72 15),
    (3, leBytes 64 1 ++ [0, 0, 12, 21] ++ leBytes 4 1 ++ leBytes 56 0 ++ leBytes 64 1)] }
/-- The TLBs of core 0, of partition 0's command processor, of copy engine 0 and of tier 0 hold the three pages. -/
def warm : Tab (List TlbEntry) :=
  let l := [{ part := 0, slot := 0, base := 0x10000, bits := 16, leaf := 0x100F3 }, { part := 0, slot := 0, base := 0x20000, bits := 16, leaf := 0x200F3 },
    { part := 0, slot := 0, base := 0x30000, bits := 16, leaf := 0x300F3 }]
  [(0, l), (576, l), (640, l), (656, l)]
/-- A running device: every domain released, Deputy and Crew up, port 0 ready, partition 0 of function 0 with one seam whose pages 1 to 3 are mapped at 0x10000. -/
def dev : State := { State.reset with
  rst := { released := 127, stage := 10, strapped := true, shiftReady := true }
  dpt := { up := true, crewUp := true }
  ports := [(0, { present := true, dom := .ready, perst := false, rate := 6, width := 8, flit := true, linkUp := true, claimed := true })]
  fns := [(0, { cfg := { memEn := true } })]
  srv := { applied := some svA }
  mem := { chans := [(0, { state := .live, pages := 1024 })], used := [(0, true), (1, true), (2, true), (3, true)], trained := true, tlbs := warm, frames := [(0, [(0, 0, 1), (0, 0, 2), (0, 0, 3)])] }
  parts := [(0, {
    as := [(0, 2 ^ 63)]
    table := [(1, 0x100F3), (2, 0x200F3), (3, 0x300F3)]
    plc := { seams := [(0, { d := { chans := [0], stride := 12, frames := [(0, 1), (1, 2), (2, 3), (3, 4)] } })] } })] }
/-- A gang of two live lanes at 0x10000: r0 = 7 and -1, r1 = 0 and 3, r3 = 2 and 1; r4 the workspace addresses 0x40 and 0x80, the pair
r6 the device addresses 0x20100 and 0x20180; u0 = 256, the pair u2 = 0x10100; m0 an INT8 descriptor of the first array. -/
def gang0 : Gang := {
  live := true
  k := { vregs := 64, wsSize := 4096, binds := [(0, some { conveyor := 0, pop := false, width := 2 }), (1, some { conveyor := 1, pop := true, width := 2 })] }
  lanes := [(0, { pc := 0x10000, stack := [0x10040] }), (1, { pc := 0x10000, stack := [0x10048] })]
  exited := 2 ^ 32 - 4
  regs := [(0, 7#32), (1, 0xFFFFFFFF#32), (33, 3#32), (96, 2#32), (97, 1#32), (128, 0x40#32), (129, 0x80#32), (192, 0x20100#32), (193, 0x20180#32)]
  uregs := [(0, 256#32), (2, 0x10100#32)]
  mdesc := [(0, BitVec.ofNat 64 (8 * 2 ^ 60 + 8 * 2 ^ 56 + 31 * 2 ^ 51 + 31 * 2 ^ 46 + 2 * 2 ^ 21))] }
def devG : State := { dev with gangs := [(0, gang0)] }

/-- A gang's instruction word: its opcode and the fields that are not zero, each a value with its lowest bit. -/
def word (op : Nat) (fs : List (Nat × Nat)) : DWord := BitVec.ofNat 64 (op * 2 ^ 50 + (fs.map fun e => e.1 * 2 ^ e.2).sum)

/-- The state with these instruction words at 0x10000, where the core's instruction cache holds them. -/
def code (ws : List Nat) (s : State) : State := { s with
  cores := Tab.set {} s.cores 0 { s.core 0 with icache := [{ line := paLine (paOf 0 1 0), data := padTo 128 (ws.flatMap (leBytes 8)), bad := false }] } }

/-- The same for the word of an opcode and its extension word. -/
def codeOf (op : Nat) (w x : DWord) (s : State) : State := code [withOp op w, x.toNat] s

/-- The state that a fetch leaves. -/
def fetched (g path : Nat) (s : State) : State := match s.fetch g path with | .words _ _ u => u | _ => s

/-- The conditions of Issues, evaluated. -/
def issuesB (op g : Nat) (w x : DWord) (s : State) (path : Nat) : Bool :=
  s.alive g && s.first g && s.turn g == some path &&
  (match s.fetch g path with | .words v y _ => v == withOp op w && (!bit (withOp op w) 63 || y == x.toNat) | _ => false)

theorem issues_of (op g : Nat) (w x : DWord) (s : State) (path : Nat) (h : issuesB op g w x s path = true) :
    Issues op g w x s (fetched g path s) path := by
  simp only [issuesB, Bool.and_eq_true, beq_iff_eq] at h
  obtain ⟨⟨⟨a, b⟩, c⟩, d⟩ := h
  refine ⟨a, b, c, ?_⟩
  unfold fetched
  split at d
  · next v y u e =>
    simp only [Bool.and_eq_true, beq_iff_eq, Bool.or_eq_true, Bool.not_eq_true'] at d
    exact ⟨y, by rw [e, d.1], fun k => by rcases d.2 with q | q <;> simp_all⟩
  · cases d

/-- The same of gang 0 of `devG` with the word at its program counter. -/
def issB (op : Nat) (w : DWord) : Bool := issuesB op 0 w 0 (codeOf op w 0 devG) 3

/-- Where a state is what an outcome leads to; the state before, where it leads to none. -/
def after (i : Instr) (s : State) : State := match exec i s with | .next t => t | _ => s

/-- The word of a register row: D 2, A 0, and B 1 and C 3 where the row uses them. -/
def rWord (op : Nat) (sp : RSpec) : DWord :=
  word op ((if sp.d = 0 then [] else [(2, 42)]) ++ (if sp.b = 0 then [] else [(1, 26)]) ++ if sp.c = 0 then [] else [(3, 18)])

theorem test_integer_rows_met : ∀ r ∈ integerRows, issB r.op (rWord r.op r.sp) = true ∧
    (let c := devG.ctx 0 (withOp r.op (rWord r.op r.sp)) 0 3; (c.check (c.rBad r.sp c.wide) (c.srcs r.sp c.wide) [c.dstR r.sp]).isNone = true) := by decide
theorem test_float_rows_met : ∀ r ∈ floatRows, issB r.op (rWord r.op r.sp) = true ∧
    (let c := devG.ctx 0 (withOp r.op (rWord r.op r.sp)) 0 3; (c.check (c.rBad r.sp c.wide) (c.srcs r.sp c.wide) [c.dstR r.sp]).isNone = true) := by decide
theorem test_predicate_rows_met : ∀ r ∈ predRows, issB r.op (rWord r.op r.sp) = true ∧
    (let c := devG.ctx 0 (withOp r.op (rWord r.op r.sp)) 0 3; (c.check (c.rBad r.sp c.wide) (c.srcs r.sp c.wide) []).isNone = true) := by decide
/-- The registers r of the two lanes after a command of gang 0. -/
def regs (row : Nat → DWord → DWord → Instr) (op : Nat) (w : DWord) (r : Nat) : List Word :=
  [0, 1].map fun l => Tab.get 0 ((after (row 0 w 0) (codeOf op w 0 devG)).gang 0).regs (r * 32 + l)

theorem test_iadd : regs .iadd 0 (rWord 0 {}) 2 = [7#32, 2#32] := by decide
theorem test_idiv_zero : regs .idivS 7 (rWord 7 {}) 2 = [0xFFFFFFFF#32, 0#32] := by decide
theorem test_fadd : regs .fadd 0x30 (word 0x30 [(2, 42), (5, 34), (5, 26)]) 2 = [0#32, 0#32] := by decide
theorem test_icmp : Tab.get 0 ((after (.icmpLtS 0 (word 0x25 [(3, 42), (1, 26)]) 0) (code [(word 0x25 [(3, 42), (1, 26)]).toNat] devG)).gang 0).preds 3 = 2#32 := by decide
theorem test_guard : regs .mov 0x1A (word 0x1A [(1, 62), (1, 61), (2, 42)]) 2 = [7#32, 0xFFFFFFFF#32] ∧
    regs .mov 0x1A (word 0x1A [(1, 62), (2, 42)]) 2 = [0#32, 0#32] := by decide
/-! The other rows of gangs: where their conditions hold, and what they do there. -/

def ctxOf (op : Nat) (w : DWord) : Ctx := devG.ctx 0 (withOp op w) 0 3

theorem test_shfl_met : let w := word 0x1B [(2, 42), (1, 26)]; let c := ctxOf 0x1B w; let sp : RSpec := { kinds := [0] }
    let a := c.srcA 2 c.wide; let b := c.srcB 2 c.wide
    issB 0x1B w = true ∧ (({ c with act := 0 } : Ctx).check (c.rBad sp c.wide) [a, b] [c.dstR sp]).isNone = true ∧
    b.awaited c = false ∧ (c.dstR sp).awaited c = false ∧
    ∀ l ∈ c.lanes, a.awaited { c with act := 2 ^ (b.val c l % 32) } = false ∧ b.poison c l = none ∧ a.poison c (b.val c l % 32) = none := by decide
theorem test_move_rows_met :
    (let w := word 0x1C [(2, 42)]; let c := ctxOf 0x1C w
      issB 0x1C w = true ∧ (c.check (c.rBad { a := 0, b := 0, types := [0], d := 1 } 1) [] [c.dstR { d := 1 }]).isNone = true) ∧
    (let w := word 0x1D [(1, 42), (2, 34), (1, 16), (1, 8)]; let c := ctxOf 0x1D w
      issB 0x1D w = true ∧ (c.check (c.rBad { b := 0, kinds := [1, 2], types := [1], d := 0 } 2) [c.srcA 2 2] []).isNone = true ∧ c.lanes ≠ []) ∧
    (let w := word 0x1E [(2, 42), (1, 34), (1, 8)]; let c := ctxOf 0x1E w
      issB 0x1E w = true ∧ (c.check (c.rBad { b := 0, kinds := [0], types := [1] } 2 || c.eightBad) []
        [{ kind := b2n (bit c.w 5), idx := c.f 49 42, n := 2 }]).isNone = true) ∧
    (let w := word 0x1F [(2, 42), (1, 34)]; let c := ctxOf 0x1F w
      issB 0x1F w = true ∧ (c.check (c.rBad { b := 0, kinds := [0], types := [0], d := 1 } 1 || c.eightBad) [] [c.dstR { d := 1 }]).isNone = true) ∧
    ∀ op ∈ [0x50, 0x51], let w := word op [(2, 42), (1, 8)]; let c := ctxOf op w
      issB op w = true ∧
      (c.check (c.rBad { b := 0, types := [1, 2, 3, 4, 5, 6, 7, 8, 9], rm := 2 } 1) [c.srcA 2 1] [c.dstR { d := 1 }]).isNone = true := by decide
theorem test_control_rows_met :
    (∀ e ∈ [(0x60, [(1, 0)]), (0x62, [(1, 0)])], let w := word e.1 e.2; let c := ctxOf e.1 w
      issB e.1 w = true ∧ (c.check (c.bBad false true) [] []).isNone = true ∧ ∀ l ∈ c.lanes, (c.x.lane l).stack.length < 16) ∧
    (∀ op ∈ [0x61, 0x63], let w := word op [(6, 42)]; let c := ctxOf op w
      issB op w = true ∧ (c.check (c.bBad true false) [c.target] []).isNone = true ∧ ∀ l ∈ c.lanes, c.target.val c l % 8 = 0) ∧
    ∀ op ∈ [0x64, 0x65, 0x66], let w := word op []; let c := ctxOf op w
      issB op w = true ∧ (c.check (c.bBad false false) [] []).isNone = true ∧ (∀ l ∈ c.lanes, (c.x.lane l).stack ≠ []) ∧
      ({ c.x with exited := c.x.exited ||| c.act } : Gang).done = true := by decide
/-- An exit of one lane of two: the gang is not done, and its other lane waits at no barrier. -/
theorem test_exit_one_met : let w := word 0x65 [(1, 62)]; let s : State := { devG with gangs := [(0, { gang0 with preds := [(0, 1#32)] })] }
    let c := s.ctx 0 (withOp 0x65 w) 0 3
    issuesB 0x65 0 w 0 (codeOf 0x65 w 0 s) 3 = true ∧ (c.check (c.bBad false false) [] []).isNone = true ∧ c.act = 1 ∧
    ({ c.x with exited := c.x.exited ||| c.act } : Gang).done = false ∧ ({ c.x with exited := c.x.exited ||| c.act } : Gang).allAt = none := by decide
theorem test_trap_rows_met :
    (∀ op ∈ [0x67, 0x68], let w := word op [(5, 0)]; let c := ctxOf op w
      issB op w = true ∧ (c.check (c.bBad false true) [] []).isNone = true ∧ c.act ≠ 0) ∧
    (let w := word 0x29 []; opDefined (fld w 57 50) = false ∧ issB (fld w 57 50) w = true) ∧
    (∀ r ∈ integerRows ++ floatRows, let w := word r.op [(1, 0)]; issB r.op w = true ∧ (ctxOf r.op w).rBad r.sp (ctxOf r.op w).wide = true) ∧
    (∀ r ∈ predRows, let w := word r.op [(1, 0)]; issB r.op w = true ∧ (ctxOf r.op w).rBad r.sp (ctxOf r.op w).wide = true) ∧
    (State.gang { dev with gangs := [(0, { gang0 with trap := some { code := 16, pc := 0, mask := 3, extra := [] } })] } 0).trap.isSome = true := by decide
theorem test_bookkeeping_met : (∃ l < 32, bit (devG.gang 0).exited l = false) ∧ (devG.gang 0).live = true := by decide
theorem test_bra : (((after (.bra 0 (word 0x60 [(2 ^ 32 - 3, 0)]) 0) (codeOf 0x60 (word 0x60 [(2 ^ 32 - 3, 0)]) 0 devG)).gang 0).lane 1).pc = 0xFFE8 := by decide
theorem test_trap : ((after (.trap 0 (word 0x67 [(5, 0)]) 0) (codeOf 0x67 (word 0x67 [(5, 0)]) 0 devG)).gang 0).trap = some { code := 0x10, pc := 0x10000, mask := 3, extra := extra16 5 0 } := by decide

/-- The exact values lie within R519's bounds, and values beyond them do not: 1 ÷ 2, 1 ÷ √4, 2², log₂ 8, sin 0, cos 0, tanh 100. -/
theorem test_approx_met :
    fval 0x40000000 = .fin false 0x800000 (-22) ∧ fval 0x41000000 = .fin false 0x800000 (-20) ∧ 0x40490FDB ≤ 0x41000000 % 2 ^ 31 ∧
    approxWithin 0 0x40000000 0x3F000000 = true ∧ approxWithin 0 0x40000000 0x3F000002 = false ∧ approxWithin 1 0x40800000 0x3F000002 = true ∧
    approxWithin 1 0x40800000 0x3F000003 = false ∧ approxWithin 2 0x40000000 0x40800000 = true ∧ approxWithin 2 0x40000000 0x40800003 = false ∧
    approxWithin 3 0x41000000 0x40400000 = true ∧ approxWithin 3 0x41000000 0x40400003 = false ∧ approxWithin 4 0 0 = true ∧ approxWithin 5 0 0x3F800000 = true ∧
    approxWithin 5 0x41000000 0x3F800001 = false ∧ approxWithin 6 0x42C80000 0x3F800000 = true ∧ approxWithin 6 0x42C80000 0x3F7FFFF0 = false := by decide
/-- A gang at an address that no page maps: its fetch traps (XLT). -/
theorem test_fetch_trap : let s : State := { devG with gangs := [(0, { gang0 with lanes := [(0, { pc := 0x90000 }), (1, { pc := 0x90000 })] })] }
    s.alive 0 = true ∧ s.first 0 = true ∧ s.turn 0 = some 3 ∧ (match s.fetch 0 3 with | .trap c _ _ => c == 0x07 | _ => false) = true ∧
    devG.first 1 = false ∧ dev.alive 0 = false := by decide
/-! Memory rows. -/

/-- A load's word: D 2, address r4 in workspace or r6 in device memory, 4 bytes. -/
def ldWord (op space : Nat) (fs : List (Nat × Nat) := []) : DWord :=
  word op ([(2, 42), (if space = 0 then 4 else 6, 34), (space, 30), (2, 27)] ++ fs)
def okTargets (s : State) (c : Ctx) (u : MemUse) (order : Bool) (off : Int) : List (Nat × Nat × Loc) :=
  match s.targets c u order off with | .ok l => l | .error _ => []
/-- The conditions of Reaches, evaluated on the places found. -/
def reachesB (c : Ctx) (s : State) (u : MemUse) (order : Bool) (off : Int) : Bool :=
  !c.heldUp && (okTargets s c u order off) != [] && !s.ctrlWaits c.g (okTargets s c u order off)

theorem reaches_of (c : Ctx) (s : State) (u : MemUse) (order : Bool) (off : Int) (h : reachesB c s u order off = true) :
    Reaches c s u order off (okTargets s c u order off) := by
  simp only [reachesB, Bool.and_eq_true, Bool.not_eq_true', bne_iff_ne, ne_eq] at h
  refine ⟨h.1.1, ?_, h.1.2, h.2⟩
  have h2 := h.1.2
  revert h2
  unfold okTargets
  split
  · intro _; assumption
  · intro h; exact absurd rfl h

theorem test_loads_met : ∀ sp ∈ [0, 1], ∀ acq ∈ [false, true], let op := if acq then 0x73 else 0x70
    let w := ldWord op sp; let c := ctxOf op w
    sp = 0 ∧ acq = true ∨ (issB op w = true ∧ (c.check (c.loadBad acq) [c.base] [c.dataOpd]).isNone = true ∧
      reachesB c devG .load acq c.offset = true ∧
      (State.loadLanes regIo c { l1 := !acq, alloc := c.f 25 24 == 0 } devG.uid (okTargets devG c .load acq c.offset) (loadFrom acq c devG)).isSome = true) := by decide
/-- What a lane's load finds in the buffer, in part there, and not at all. -/
theorem test_lane_reads_met :
    let e : StEntry := { gang := 0, lane := 0, addr := 0x40, loc := .ws 0 0x40, size := 4, data := 5, kind := .plain, stamp := none, tag := none }
    let s : State := { devG with subs := [(0, [e])] }
    forward (s.stores 0 0) (.ws 0 0x40) 4 = .all [5#8, 0#8, 0#8, 0#8] ∧ forward (s.stores 0 0) (.ws 0 0x42) 4 = .part ∧
    forward (s.stores 0 0) (.ws 0 0x44) 4 = .none ∧ forward (s.stores 0 0) (.dev 64) 4 = .none ∧ s.lineHeld 64 = false ∧
    s.hostAsk 0 1 0 4 (.load 0 0 0) = none ∧ (s.hostAsk 0 0 0 4 (.load 0 0 0)).isSome = true ∧ s.reachable 9 = false := by decide
def pend0 : PendLoad := {
  id := 0
  kind := .plain
  dst := 2
  size := 2
  sx := true
  lanes := [{ lane := 0, addr := 0x40, loc := .ws 0 0x40, ready := true, data := 0x8000, poison := none }]
  vals := []
  stamp := none
  devScope := false }
def pend1 : PendLoad := { pend0 with id := 1, lanes := [{ lane := 1, addr := 0, loc := .host 0 0 false, ready := false, data := 0, poison := none }] }
def devL : State := { devG with gangs := [(0, { gang0 with pend := [pend1, pend0] })] }
theorem test_load_return_met : (devL.gang 0).pend[1]? = some pend0 ∧ pend0.kind ≠ .sem ∧ (∀ l ∈ pend0.lanes, l.ready = true) ∧
    (∀ q ∈ (devL.gang 0).pend.take 1, q.kind = .sem ∨ ∀ l ∈ q.lanes, ∀ m ∈ pend0.lanes, m.lane ≠ l.lane) := by decide
theorem test_load_return : Tab.get 0 ((after (.loadReturn 0 1) devL).gang 0).regs 64 = 0xFFFF8000#32 := by decide
theorem test_load_timeout_met : (devL.gang 0).pend[0]? = some pend1 ∧ pend1.kind ≠ .sem ∧ (∃ l ∈ pend1.lanes, l.ready = false) := by decide
theorem test_stores_met :
    (∀ sp ∈ [0, 1], ∀ e ∈ [(0x71, StKind.plain), (0x74, .release)], let w := ldWord e.1 sp; let c := ctxOf e.1 w
      sp = 0 ∧ e.2 = .release ∨ (issB e.1 w = true ∧ (c.check (c.storeBad (e.2 == .release)) [c.base, c.dataOpd] []).isNone = true ∧
        reachesB c devG .store (e.2 == .release) c.offset = true ∧
        (devG.storeEntries c e.2 (fun l => c.dataOpd.val c l) (okTargets devG c .store (e.2 == .release) c.offset)).length = 2 ∧ devG.held 0 = 0)) ∧
    let w := word 0x76 [(6, 34), (1, 30), (3, 27), (8, 15)]; let c := ctxOf 0x76 w
    issB 0x76 w = true ∧ (c.check c.semBad [c.base, c.xOpd 22 15] []).isNone = true ∧ reachesB c devG .both true 0 = true ∧
    (∀ y ∈ okTargets devG c .both true 0, (match y.2.2 with | .ctrl _ _ => false | _ => true) = true) := by decide
theorem test_store_drain : let e : StEntry := { gang := 0, lane := 0, addr := 0x20100, loc := .dev 0x20100, size := 4, data := 0x1234, kind := .plain, stamp := none, tag := some 7 }
    let s : State := { devG with subs := [(0, [e])] }
    (s.sub 0)[0]? = some e ∧ mayLeave (s.sub 0) 0 e = true ∧ (s.port 1).dom ≠ .ready ∧ s.guardedAt 0x20100 = false ∧ s.deadAt 0x20100 = false ∧
    (after (.storeDrain 0 0) s).mem.dev.byte 0x20100 = 0x34#8 ∧ (after (.storeDrain 0 0) s).mem.dev.byte 0x20102 = 0#8 ∧ (after (.storeDrain 0 0) s).sub 0 = [] := by decide
theorem test_atom_met : let w := word 0x72 [(2, 42), (6, 34), (1, 30), (2, 27), (1, 15)]; let c := ctxOf 0x72 w
    issB 0x72 w = true ∧ (c.check c.atomBad c.atomSrcs [{ kind := 0, idx := c.f 49 42, n := 1 }]).isNone = true ∧
    c.heldUp = false ∧ okTargets devG c .both true 0 ≠ [] ∧ (State.atomLanes c devG.uid (okTargets devG c .both true 0) { devG with uid := devG.uid + 1 }).isSome = true ∧
    (∀ loc ∈ [Loc.ws 0 0x40, .l2s 0 0, .dev 0x20100], (devG.stores c.g 0).any (fun y => y.loc.overlaps y.size loc c.size) = false) ∧
    devG.wsPoison 0 0x40 4 = false ∧ devG.poisonAt 0x20100 = false ∧
    (let w := word 0x72 [(2, 42), (6, 34), (1, 30), (2, 27), (11, 23)]; issB 0x72 w = true ∧ 10 < (ctxOf 0x72 w).f 26 23) := by decide
/-- An acquire's places, and a store for a held channel. -/
theorem test_held_met : let s : State := { devG with mem := { dev.mem with chans := [(0, { state := .held, pages := 1024 })] } }
    s.lineHeld 0x20100 = true ∧ devG.lineHeld 0x20100 = false ∧ s.writeHeld 0x20100 = false ∧
    (forward (s.stores 0 0) (.dev 0x20100) 4 = .none) ∧ ((s.core 0).l1Hit 0x20100).isNone = true := by decide
theorem test_atom_adds : (after (.atom 0 (word 0x72 [(2, 42), (6, 34), (1, 30), (2, 27), (1, 15)]) 0) (codeOf 0x72 (word 0x72 [(2, 42), (6, 34), (1, 30), (2, 27), (1, 15)]) 0 devG)).mem.dev.byte 0x20180 = 3#8 := by decide
theorem test_sem_acquire_met : let w := word 0x75 [(6, 34), (1, 30), (3, 27), (8, 15)]; let c := ctxOf 0x75 w
    issB 0x75 w = true ∧ (c.check c.semBad [c.base, c.xOpd 22 15] []).isNone = true ∧ reachesB c devG .both true 0 = true := by decide
theorem test_semaphore_polls_met :
    let s : State := { devG with parts := [(0, { (devG.part 0) with cmds := [(5, { wait := .sem 0x20100 0 }), (6, { wait := .sem 0x20100 1 })] })] }
    (s.cmd 0 5).wait = .sem 0x20100 0 ∧ s.semWord 0x20100 = some 0 ∧
    State.semWord { s with mem := { s.mem with poison := [(0x20100 / 128, 255)] } } 0x20100 = none := by decide
theorem test_fences_met :
    (∀ sel ∈ [1, 2, 3], let w := word 0x80 [(sel, 24)]; let c := ctxOf 0x80 w
      issB 0x80 w = true ∧ (c.check (c.sBad fSEL || c.f 25 24 == 0) [] []).isNone = true) ∧
    (let w := word 0x81 []; let c := ctxOf 0x81 w
      issB 0x81 w = true ∧ (c.check (c.sBad 0 || c.guarded) [] []).isNone = true) ∧
    (∀ n ∈ [1, 64], let w := word 0x82 [(15, 26), (n, 16)]; let c := ctxOf 0x82 w
      issB 0x82 w = true ∧ bit c.w 15 = false ∧ c.guarded = false ∧ (c.check (c.guarded || c.sBad (fID + fKC + fCOUNT)) [] []).isNone = true ∧
      c.f 23 16 = n ∧ Tab.get 0 ((devG.core 0).bar (c.f 29 26)).counts 0 = 0 ∧ ((devG.core 0).bar (c.f 29 26)).count = none) ∧
    (let w := word 0x82 [(0, 26), (1, 15), (1, 33), (2, 34)]; let c := ctxOf 0x82 w; let o : Opd := { kind := c.f 33 33, idx := c.f 41 34, n := 1 }
      issB 0x82 w = true ∧ bit c.w 15 = true ∧ bit c.w 33 = true ∧ (c.check (c.guarded || c.sBad (fID + fKC + fA + fKA)) [o] []).isNone = true) ∧
    (∀ sel ∈ [0, 1, 2], let w := word 0xA0 [(2, 42), (sel, 24)]; let c := ctxOf 0xA0 w
      issB 0xA0 w = true ∧ (c.check (c.guarded || c.sBad (fD + fKA + fSEL) || c.f 25 24 == 3) []
        [{ kind := c.f 33 33, idx := c.f 49 42, n := if c.f 25 24 = 1 then 1 else 2 }]).isNone = true) ∧
    (let w := word 0xA1 [(2, 42)]; let c := ctxOf 0xA1 w
      issB 0xA1 w = true ∧ (c.check (c.sBad (fD + fKA)) [] [{ kind := c.f 33 33, idx := c.f 49 42, n := 1 }]).isNone = true ∧
      c.path &&& (c.x.holdLd ||| c.x.holdSt) = 0) ∧
    (let w := word 0xA2 [(1, 16)]; let c := ctxOf 0xA2 w
      issB 0xA2 w = true ∧ (c.check (c.sBad fCOUNT || c.f 23 18 != 0) [] []).isNone = true) := by decide
/-! Conveyors, matrix rows and gang events. -/

/-- Conveyor 0 is pushed to and conveyor 1 holds two entries; both lie within the device. -/
def cv0 : Conveyor := { declared := true, producer := 0, consumer := 1, width := 2, depth := 64 }
def cv1 : Conveyor := { cv0 with buf := [1#128, 2#128] }
def withCv (a b : Conveyor) (g : Gang := gang0) : State :=
  { dev with gangs := [(0, g)], parts := [(0, { (dev.part 0) with plc := { (dev.part 0).plc with conveyors := [(0, a), (1, b)] } })] }
def cvWord (op id d : Nat) (fs : List (Nat × Nat) := []) : DWord := word op ([(d, 42), (id, 26)] ++ fs)

/-- The conditions of CvOk, evaluated. -/
def cvOkB (pop try_ : Bool) (c : Ctx) (b : CvBind) : Bool :=
  Tab.get none c.x.k.binds (c.f 29 26) == some b && b.pop == pop && c.lanes != [] &&
  (c.check (c.sBad (fD + fID + if try_ then fPD else 0))
    (if pop then [] else [{ kind := 0, idx := c.f 49 42, n := 2 ^ b.width }])
    (if pop then [{ kind := 0, idx := c.f 49 42, n := 2 ^ b.width }] else [])).isNone

theorem cv_ok_of (pop try_ : Bool) (c : Ctx) (s : State) (b : CvBind) (h : cvOkB pop try_ c b = true) : CvOk pop try_ c s b := by
  simp only [cvOkB, Bool.and_eq_true, beq_iff_eq, bne_iff_ne, Option.isNone_iff_eq_none] at h
  exact ⟨h.1.1.1, h.1.1.2, h.1.2, h.2⟩

def bind0 : CvBind := { conveyor := 0, pop := false, width := 2 }
def bind1 : CvBind := { conveyor := 1, pop := true, width := 2 }
theorem test_conveyors_met :
    (∀ t ∈ [false, true], let op := if t then 0x8A else 0x88; let w := cvWord op 0 4; let s := withCv cv0 cv1
      issuesB op 0 w 0 (codeOf op w 0 s) 3 = true ∧ cvOkB false t (s.ctx 0 (withOp op w) 0 3) bind0 = true ∧ (s.conv 0 0).dead = false ∧ 2 ≤ (s.conv 0 0).room) ∧
    (∀ t ∈ [false, true], let op := if t then 0x8B else 0x89; let w := cvWord op 1 4; let s := withCv cv0 cv1
      issuesB op 0 w 0 (codeOf op w 0 s) 3 = true ∧ cvOkB true t (s.ctx 0 (withOp op w) 0 3) bind1 = true ∧ 2 ≤ (s.conv 0 1).buf.length) ∧
    (let w := cvWord 0x8A 0 4; let s := withCv { cv0 with depth := 1 } cv0
      issuesB 0x8A 0 w 0 (codeOf 0x8A w 0 s) 3 = true ∧ cvOkB false true (s.ctx 0 (withOp 0x8A w) 0 3) bind0 = true ∧ (s.conv 0 0).room < 2) ∧
    (let w := cvWord 0x8B 1 4; let s := withCv cv0 cv0
      issuesB 0x8B 0 w 0 (codeOf 0x8B w 0 s) 3 = true ∧ cvOkB true true (s.ctx 0 (withOp 0x8B w) 0 3) bind1 = true ∧ (s.conv 0 1).buf.length < 2) := by decide
/-- A push without room and a pop without entries: their paths wait. -/
theorem test_cv_waits_met :
    (let w := cvWord 0x88 0 4; let s := withCv { cv0 with depth := 1 } cv0
      issuesB 0x88 0 w 0 (codeOf 0x88 w 0 s) 3 = true ∧ cvOkB false false (s.ctx 0 (withOp 0x88 w) 0 3) bind0 = true ∧ (s.conv 0 0).dead = false ∧ (s.conv 0 0).room < 2) ∧
    (let w := cvWord 0x89 1 4; let s := withCv cv0 cv0
      issuesB 0x89 0 w 0 (codeOf 0x89 w 0 s) 3 = true ∧ cvOkB true false (s.ctx 0 (withOp 0x89 w) 0 3) bind1 = true ∧ (s.conv 0 1).ended = false ∧ (s.conv 0 1).buf.length < 2) := by decide
theorem test_cv_push : ((after (.cvPush 0 (cvWord 0x88 0 4) 0) (codeOf 0x88 (cvWord 0x88 0 4) 0 (withCv cv0 cv1))).conv 0 0).buf = [BitVec.ofNat 128 (0x40 + 0x20100 * 2 ^ 64), BitVec.ofNat 128 (0x80 + 0x20180 * 2 ^ 64)] := by decide
theorem test_cv_pop : Tab.get 0 ((after (.cvPop 0 (cvWord 0x89 1 4) 0) (codeOf 0x89 (cvWord 0x89 1 4) 0 (withCv cv0 cv1))).gang 0).regs 129 = 2#32 ∧
    ((after (.cvPop 0 (cvWord 0x89 1 4) 0) (codeOf 0x89 (cvWord 0x89 1 4) 0 (withCv cv0 cv1))).conv 0 1).buf = [] := by decide

/-- An instruction of all 32 lanes, as the matrix rows need. -/
def gangM : Gang := { gang0 with exited := 0, lanes := (List.range 32).map fun l => (l, { pc := 0x10000 }) }
def devM : State := { dev with gangs := [(0, gangM)] }
def ctxM (op : Nat) (w : DWord) : Ctx := devM.ctx 0 (withOp op w) 0 (2 ^ 32 - 1)
theorem test_matrix_rows_met :
    (∀ op ∈ [0x90, 0x91], let w := word op [(8, 42)]; let c := ctxM op w; let n := fragRegs 0 c.desc.fmtS c.desc.mode
      issuesB op 0 w 0 (codeOf op w 0 devM) (2 ^ 32 - 1) = true ∧ n = 8 ∧
      (c.mCheck (c.hasExt || c.tBad (fV + fA + fMD + fFRAG + fOFF) || decide (c.f 30 28 > 1) || c.oddV || ({ kind := 1, idx := c.f 41 34, n := 1 } : Opd).bad)
        (if op = 0x91 then c.frag n else []) (if op = 0x90 then c.frag n else [])).isNone = true ∧
      c.x.k.inWs 256 (2 * 512) = true ∧ c.fragWait devM 256 (2 * 512) = false) ∧
    (let w := word 0x92 [(8, 42)]; let c := ctxM 0x92 w
      issuesB 0x92 0 w 0 (codeOf 0x92 w 0 devM) (2 ^ 32 - 1) = true ∧ ((devM.core 0).unit c.desc.unit).shadow = none ∧ ((devM.core 0).unit c.desc.unit).runs = [] ∧
      (c.mCheck (c.hasExt || c.tBad (fV + fMD + fFRAG) || decide (c.f 30 28 > 1) || c.oddV) (c.frag 8) []).isNone = true) ∧
    (let w := word 0x92 [(8, 42), (1, 28)]; let c := ctxM 0x92 w
      issuesB 0x92 0 w 0 (codeOf 0x92 w 0 devM) (2 ^ 32 - 1) = true ∧ (c.mCheck (c.hasExt || c.tBad (fV + fMD + fFRAG) || decide (c.f 30 28 > 1) || c.oddV) []
        (c.frag (fragRegs 1 c.desc.fmtS c.desc.mode))).isNone = true) ∧
    (let w := word 0x94 [(8, 42)]; let c := ctxM 0x94 w
      issuesB 0x94 0 w 0 (codeOf 0x94 w 0 devM) (2 ^ 32 - 1) = true ∧ (c.mCheck (c.hasExt || c.tBad (fV + fMD) || c.oddV) [] (c.frag (fragRegs 1 c.desc.fmtS c.desc.mode))).isNone = true) ∧
    (let w := word 0x93 []; let c := ctxM 0x93 w; let d := c.desc
      issuesB 0x93 0 w 0 (codeOf 0x93 w 0 devM) (2 ^ 32 - 1) = true ∧ (c.mCheck (c.tBad fMD || c.hasExt != decide (3 ≤ d.fmtW ∧ d.fmtW ≤ 7)) [] []).isNone = true ∧
      c.hasExt = false ∧ d.k = 2 ∧ c.x.k.inWs d.waddr (d.k * vecBytes d.fmtW d.mode) = true ∧ d.k * scaleBytes 0 d.mode = 0) := by decide
def run0 : MRun := {
  gang := 0
  part := 0
  tally := 0
  mode := 0
  fmtS := 8
  fmtW := 8
  rows := 31
  cols := 31
  acc := false
  count := 2
  waddr := 0
  saddr := 0
  scale := 0
  tscale := 0
  tile := { fmt := 8, elems := [(0, 3)] }
  swaps := true
  first := 5 }
theorem test_run_complete_met :
    let s : State := { dev with cores := [(0, { units := [(0, { runs := [run0, run0], shadow := some run0.tile, claimed := some 5 })] })] }
    ((s.core 0).unit 0).runs = [run0, run0] ∧ run0.count ≤ 32 ∧ run0.cols < 32 ∧ run0.tile.fmt = run0.fmtS ∧ run0.swaps = true ∧ ((s.core 0).unit 0).claimed = some run0.first ∧ dev.rst.tripped = false := by decide

/-- A gang whose two live lanes wait, at two barriers or at one. -/
def waits (a b : Wait) : Gang := { gang0 with lanes := [(0, { pc := 0x10000, wait := a }), (1, { pc := 0x10040, wait := b })] }
theorem test_deadlock_split_met : let s : State := { dev with gangs := [(0, waits (.named 1) .gangBar)] }
    (s.gang 0).live = true ∧ (s.gang 0).done = false ∧ (s.gang 0).split = true ∧ (s.gang 0).mode = .running ∧ (s.gang 0).trap = none ∧
    ((after (.barrierDeadlock 0) s).gang 0).trap.isSome = true := by decide
theorem test_deadlock_arrival_met :
    let s : State := { dev with gangs := [(0, waits (.named 1) (.named 1))], cores := [(0, { kern := some (0, 0), bars := [(1, { count := some 2, arrived := [0], members := [0] })] })] }
    (s.gang 0).split = false ∧ 0 ∈ ((s.core 0).bar 1).arrived ∧ (s.gang 0).liveLanes ≠ [] ∧ ((after (.barrierDeadlock 0) s).gang 0).trap.isSome = true ∧
    after (.barrierDeadlock 0) devG = devG := by decide
def trapped : Gang := { gang0 with trap := some { code := 0x10, pc := 0x10000, mask := 3, extra := extra16 5 0 } }
theorem test_trap_report_met :
    let s : State := { dev with gangs := [(0, trapped)] }
    (s.gang 0).trap.isSome = true ∧ (s.gang 0).live = true ∧ s.quiet 0 true = true ∧ bit s.trapStop 0 = false ∧
    bit (State.trapStop { s with trapStop := 1 }) 0 = true ∧
    State.quiet { s with gangs := [(0, { trapped with pend := [pend1] })] } 0 true = false := by decide

/-- A LAUNCH of 40 threads, its gangs due on a district of core 0. -/
def launchBytes : List Byte := leBytes 20 0 ++ leBytes 4 40 ++ leBytes 8 0x10000 ++ leBytes 14 0 ++ leBytes 1 2 ++ leBytes 1 1 ++ leBytes 8 0 ++ leBytes 1 5
def devK : State := { dev with parts := [(0, { (dev.part 0) with
  cmds := [(3, { bytes := launchBytes, wait := .gangs, cores := 1, gangs := 2, startedGangs := 1, liveGangs := 1, kern := { cmd := 3, vregs := 8 }, args := leBytes 8 77 })]
  plc := { (dev.part 0).plc with stages := [(0, { declared := true, size := 1, district := 1 })] } })] }
theorem test_gang_start_met :
    let c := devK.cmd 0 3
    c.wait = .gangs ∧ c.startedGangs < c.gangs ∧ devK.frontOn = true ∧ devK.issueOn 9 = true ∧ devK.levelBusy 0 c.ring = false ∧ (devK.launchCores 0 3).contains (coreOf 9) = true ∧
    (devK.gang 9).live = false ∧ devK.regRoom (subOf 9) c.kern.vregs = true ∧ devK.coreTakes (coreOf 9) 0 3 = true := by decide
theorem test_gang_start : let x := (after (.gangStart 0 3 9) devK).gang 9
    x.exited = 0xFFFFFF00 ∧ Tab.get 0 x.uregs 0 = 77#32 ∧ Tab.get 0 x.uregs 5 = 32#32 ∧ (x.lane 7).pc = 0x10000 := by decide

/-- Function 0 debugs gang 0. -/
def devD (x : Gang) (reg : Nat := 0) : State := { dev with
  gangs := [(0, x)]
  fns := [(0, { cfg := { memEn := true }, dbg := { regSel := reg, regData := 9 } })]
  srv := { applied := some { svA with secs := svA.secs ++ [(13, List.replicate 64 0 ++ [1])] } } }
/-- The conditions of DbgAt, evaluated. -/
def dbgAtB (q g : Nat) (s : State) : Bool :=
  s.hears q && s.rel 1 && decide ((q = 32 ∧ s.dpt.unlock ≠ 0) ∨ (q ≠ 32 ∧ s.mayGlobal q = true)) && (s.fn q).dbg.gangSel % 65536 == g && decide (g ≤ 36863) &&
  decide ((s.gang g).live = true → (s.gang g).mode ≠ .halting ∧ (s.gang g).mode ≠ .stepping ∧ s.dbgMay q (s.gang g).k.part = true)
theorem dbg_at_of (q g : Nat) (s : State) (h : dbgAtB q g s = true) : DbgAt q g s := by
  simp only [dbgAtB, Bool.and_eq_true, decide_eq_true_eq, beq_iff_eq] at h
  exact ⟨h.1.1.1.1.1, h.1.1.1.1.2, h.1.1.1.2, h.1.1.2, h.1.2, h.2⟩

def halted : Gang := { gang0 with mode := .halted, cause := 0x11 }
/-- A halted gang before a BRA over four instructions. -/
def stepS : State := codeOf 0x60 (word 0x60 [(4, 0)]) 0 (devD halted)
theorem test_debug_met :
    dbgAtB 0 0 (devD gang0) = true ∧ dbgAtB 0 0 (devD halted) = true ∧ dbgAtB 0 0 (devD {}) = true ∧
    stepS.stepFor 0 none = some 3 ∧ stepS.stepFor 0 (some 1) = some 3 ∧ stepS.stepFor 0 (some 2) = none ∧ dbgAtB 0 0 stepS = true ∧
    State.quiet (devD { gang0 with mode := .halting }) 0 false = true ∧
    (∀ k ∈ [0, 1, 2, 3, 4, 5], bits (k * 2 ^ 24 + 5 * 2 ^ 16) 26 24 = k ∧ bits (k * 2 ^ 24 + 5 * 2 ^ 16) 23 16 = 5) ∧
    State.dbgMay dev 0 0 = false ∧ (devD { gang0 with mode := .stepping }).dbgMay 0 0 = true ∧
    bit halted.exited 1 = false ∧ bit halted.exited 2 = true := by decide
theorem test_halt : ((after (.halt 0) (devD gang0)).gang 0).mode = .halting ∧ ((after (.resume 0) (devD halted)).gang 0).mode = .running ∧
    ((after (.resume 0) (devD gang0)).fn 0).dbg.result = 4 := by decide
theorem test_reg_write : Tab.get 0 ((after (.regWrite 0) (devD halted (5 * 2 ^ 16 + 1))).gang 0).regs 161 = 9#32 := by decide
theorem test_step_gang : (((after (.stepGang 0 (word 0x60 [(4, 0)]) 0) stepS).gang 0).lane 0).pc = 0x10020 := by decide
theorem test_pc_write : (((after (.dbgLanePcWrite 0 1 0x10008) (devD halted)).gang 0).lane 1).pc = 0x10008 := by decide
theorem test_fault_no_trap : ((after (.fault 0) (devD gang0)).fn 0).dbg.result = 9 := by decide
/-! The queue, registers, Survey, commits. -/

theorem test_front_met : ({ dev with pending := [.leaderElection, .helloTimer] } : State).pending = .leaderElection :: [.helloTimer] := by decide
theorem test_idle : dev.pending = [] ∧ dev.rel 1 = true ∧ dev.tim.slew = 0 ∧ dev.tim.frac < 65536 ∧ State.reset.rel 1 = false ∧ dev.tick.tim.now = 1 := by decide
/-- A slew of one second's 2^-16: with no event it goes to its end, with a set-point due in 10 cycles it stops there. -/
theorem test_slew_met :
    let s : State := { dev with tim := { now := 5, slew := 65536 } }
    s.nextEvent = none ∧ s.tim.slewCycles ≠ 0 ∧
    (let c : Cadence := { live := some { period := 1000 }, begun := true }
     let u : State := { dev with tim := { now := 5, slew := 65536, cad := c } }
     u.nextEvent.isSome = true ∧ (∀ e ∈ u.nextEvent.toList, e + 1 < two64 ∧ u.tim.cyclesTo e ≠ 0)) := by decide
/-- FAB_STATUS's RC register at 16, a port's counters, and the 64-bit TIM_NOW at 0 of their blocks, with and without a latch. -/
theorem test_register_reads_met :
    (dev.reg (dev.who 0) (6 * 2 ^ 20)).map (·.size) = some 8 ∧ dev.reg (dev.who 0) (6 * 2 ^ 20 + 4) = none ∧
    (dev.reg (dev.who 0) (7 * 2 ^ 20 + 16)).map (·.rc) = some true ∧ (dev.reg (dev.who 0) (6 * 2 ^ 20 + 56)).map (·.rc) = some true ∧
    ¬ (7 * 2 ^ 20 + 16) % 2 ^ 20 ≥ 0x1000 ∧ (dev.reg (dev.who 0) 0x0701010).isSome = true ∧
    Tab.get none (dev.fn 0).rdLatch (6 * 2 ^ 20) = none ∧
    Tab.get none ((State.regRead { dev with tim := { now := 5 * 2 ^ 32 } } (dev.who 0) (6 * 2 ^ 20) 4).2.fn 0).rdLatch (6 * 2 ^ 20) = some 5 ∧
    dev.hears 0 = true ∧ dev.hears 1 = false := by decide
theorem test_register_writes_met :
    dev.wideReg (dev.who 0) (1 * 2 ^ 20) = true ∧ dev.reg (dev.who 0) (1 * 2 ^ 20 + 4) = none ∧ dev.mayGlobal 16 = false ∧ dev.mayGlobal 0 = true ∧
    State.hears { dev with fns := (16, { cfg := { memEn := true } }) :: dev.fns, ports := [(0, dev.port 0), (1, dev.port 0)] } 16 = true ∧
    dev.foreignAt (dev.who 0) (1 * 2 ^ 20) = false ∧ dev.foreignAt (dev.who 0) (1 * 2 ^ 20 + 4) = false ∧
    (dev.who 0).view = some 0 ∧ (∀ e ∈ partRegs.map (·.1 / 2 ^ 20), dev.rel (blockDomain e) = true) ∧
    (∀ b ∈ [1, 4, 6, 7, 9, 12, 14], dev.rel (blockDomain b) = true) ∧ dev.rel 0 = true ∧ dev.rel 1 = true ∧ dev.engines.keys = [] ∧
    Tab.get none (State.fn { dev with fns := [(0, { wrLatch := [(1 * 2 ^ 20, some 3)] })] } 0).wrLatch (1 * 2 ^ 20) = some 3 := by decide
theorem test_dev_part_sel : ((after (.devPartSel 0 7) dev).fn 0).partSel = some 7 := by decide

def globalB (q b : Nat) (s : State) : Bool := s.hears q && s.rel (blockDomain b) && s.mayGlobal q
theorem global_of (q b : Nat) (s : State) (h : globalB q b s = true) : GlobalAt q b s := by
  simp only [globalB, Bool.and_eq_true] at h; exact ⟨h.1.1, h.1.2, h.2⟩
def partB (q b p : Nat) (s : State) : Bool := s.hears q && s.rel (blockDomain b) && (s.who q).view == some p
theorem part_of (q b p : Nat) (s : State) (h : partB q b p s = true) : PartAt q b p s := by
  simp only [partB, Bool.and_eq_true, beq_iff_eq] at h; exact ⟨h.1.1, h.1.2, h.2⟩

theorem test_survey_starts_met : globalB 0 1 dev = true ∧ dev.srv.state.busy = false ∧ dev.rst.refuge = 0 ∧
    SrvState.busy .waiting = true ∧ State.rel { dev with rst := { released := 7, refuge := 1 } } 1 = true ∧
    ((after (.validate 0) dev).srv.state = .fetching) ∧ (after (.abort 0) dev = dev) := by decide
/-- Headers that fail at the magic, the version, the flags, the length and the section count. -/
def errOf (x : Except (Nat × Nat) Survey) : Option (Nat × Nat) := match x with | .error e => some e | .ok _ => none
theorem test_survey_header :
    errOf (dev.validate [] 0 2 none) = some (3, 0) ∧ errOf (dev.validate (ascii "SURV") 4 2 none) = some (4, 4) ∧
    errOf (dev.validate (ascii "SURV" ++ leBytes 2 0x100 ++ leBytes 2 4) 8 2 none) = some (0x0D, 6) ∧
    errOf (dev.validate (ascii "SURV" ++ leBytes 2 0x100 ++ leBytes 2 0 ++ leBytes 4 9) 8 2 none) = some (5, 8) ∧
    errOf (dev.validate (ascii "SURV" ++ leBytes 2 0x100 ++ leBytes 2 0 ++ leBytes 4 384 ++ leBytes 372 4) 384 2 none) = some (0x0E, 0x0C) := by decide

/-- An image in which partition 0 is not as in `svA`. -/
def svB : Survey := { svA with serial := 2, secs := (1, [1, 0, 0, 3]) :: svA.secs.drop 1 }
/-- An image that takes partition 0's pool 0 away. -/
def svC : Survey := { svA with serial := 2, secs := svA.secs.take 2 ++ [(3, leBytes 136 0)] }
theorem test_survey_ends_met : dev.dpt.up = true ∧ dev.sv = svA ∧ dev.live = true ∧ State.reset.live = false ∧ dev.srv.behind = false ∧ changedParts svA { svA with serial := 2 } = [] ∧ changedParts svA svB = [0] ∧
    (∃ p ∈ changedParts svA svB, svA.valid p = true) ∧ (State.srv { dev with srv := { dev.srv with state := .fetching, op := 2 } }).applied ≠ none := by decide
theorem test_resurvey_met : let s : State := { dev with srv := { dev.srv with state := .draining, op := 2, cand := some (svB, []), drain := 1 } }
    s.srv.cand = some (svB, []) ∧ (∀ p ∈ setBits 16 s.srv.drain, s.partIdle p = true) ∧ s.poolsFit svB = true ∧
    State.partIdle { s with parts := [(0, { rings := [(0, { started := [1] })] })] } 0 = false ∧
    State.poolsFit { s with parts := [(0, { plc := { seams := [(0, { used := [(0, true)] })] } })] } svC = false := by decide
theorem test_apply_met : (dev.applyImage svB).srv.applied = some svB ∧ dev.sv.coreOwner 5 = svB.coreOwner 5 ∧
    dev.sv.coreOwner 5 ≠ Survey.coreOwner { svA with secs := [(1, [1]), (2, leBytes 8 0 ++ [32])] } 5 ∧
    dev.sv.scratch 0 ≠ Survey.scratch { svA with secs := svA.secs ++ [(5, leBytes 64 0 ++ leBytes 2 15)] } 0 := by decide

/-- Partition 0 with a shadow in its ring 0 group: base 0x10000, 64 slots. -/
def ringPart (sh : BaseSize) (pend : Option BaseSize) (dr : Bool) (started : List Nat := []) : Part :=
  let g : Machine.Group BaseSize := { live := {}, shadow := sh, pend := pend }
  { (dev.part 0) with
    draining := dr
    rings := [(0, { grp := g, started := started, tail := 3 })]
    sump := g
    fltGrp := g
    en := { ering := g } }
def devR (x : Part) : State := { dev with parts := [(0, x)] }
theorem test_commits_met :
    (∀ b ∈ [2, 13, 10], partB 0 b 0 dev = true) ∧
    (let s := devR (ringPart { base := 0x10000, size := 64 } none false); let g := (s.part 0).group 0
      g.pend = none ∧ (s.part 0).draining = false ∧ isPow2 g.shadow.size = true ∧ bit g.shadow.base 55 = false ∧
      (s.back 0 0 g.shadow.base (g.shadow.size * groupUnit 0)).1 = 0 ∧ ((after (.cmdRingCommit 0 0) s).ring 0 0).grp.pend = some { base := 0x10000, size := 64 }) ∧
    isPow2 65 = false ∧ bit (2 ^ 55) 55 = true ∧
    (((devR (ringPart {} none true)).part 0).draining = true) ∧ (((devR (ringPart {} (some {}) true)).part 0).group 0).pend ≠ none := by decide
theorem test_commit_swaps_met :
    (let s := devR (ringPart {} (some { base := 0x10000, size := 64 }) false);
      (s.ring 0 0).grp.pend = some { base := 0x10000, size := 64 } ∧ (s.ring 0 0).started = [] ∧ (∀ e ∈ (s.part 0).cmds, e.2.wait ≠ .sumpSpace) ∧
      (s.part 0).flt.hold = [] ∧ (s.part 0).flt.ovEssential + (s.part 0).flt.ovInfo = 0 ∧ (s.part 0).en.hold = [] ∧ (s.part 0).en.waiting = [] ∧
      ((after (.commitSwap (.ring 0 0)) s).ring 0 0).tail = 0 ∧ ((after (.commitSwap (.ring 0 0)) s).ring 0 0).grp.count = 1) ∧
    (((devR (ringPart {} (some {}) false [1])).ring 0 0).started ≠ []) ∧
    (let c : Cadence := { pend := some (some { period := 10 }) }
      let s : State := { dev with tim := { dev.tim with now := 40000, cad := c } }
      s.tim.cad.ended s.tim.now = some 0 ∧ (after (.commitSwap .cadence) s).tim.cad.live = some { period := 10 }) := by decide
/-- Adit window 5 belongs to partition 0, device 2 to 9; its seam group 0 has a pending set. -/
def svF : Survey := { svA with secs := svA.secs ++ [(8, leBytes 208 0 ++ [0, 7] ++ leBytes 2 2 ++ leBytes 2 9 ++ leBytes 10 0)] }
def devA (x : Machine.Group AditSet) (sm : Machine.Group SeamSet) : State :=
  { dev with srv := { applied := some svF }, parts := [(0, { (dev.part 0) with adits := [(5, x)], plc := { seams := [(0, { grp := sm })] } })] }
def adit0 : AditSet := { base := 0, limit := 65536, target := 3 * 65536 + 3 }
theorem test_other_commits_met :
    let s := devA { live := {}, shadow := adit0 } { live := {}, shadow := {}, pend := some { chans := 1, stride := 12, mask := [0] } };
    partB 0 5 0 s = true ∧ partB 0 3 0 s = true ∧ s.sv.outWin 5 = some (0, 7, 2, 9) ∧ (s.seam 0 0).grp.pend ≠ none ∧ (s.seam 0 1).grp.pend = none ∧
    2 ≤ bits adit0.target 29 16 ∧ bits adit0.target 29 16 ≤ 9 ∧ adit0.target % 8 &&& (7 - 7 % 8) = 0 ∧
    (Tab.get { live := {}, shadow := {} } ((after (.xltAditCommit 0 5) s).part 0).adits 5).pend = some adit0 ∧
    (let u := devA { live := {}, shadow := {}, pend := some adit0 } { live := {}, shadow := {} };
      u.aditBusy 0 5 = false ∧ State.aditBusy { u with fab := { u.fab with tagFlow := [(0, aditFlow 0 5 + 1)] } } 0 5 = true) ∧
    s.tim.cad.live = none ∧ s.moveDue 0 0 = false ∧ (s.seam 0 0).active = false ∧ s.seamQuiet 0 0 = true ∧ ((after (.commitSwap (.seam 0 0)) s).seam 0 0).grp.count = 1 ∧
    globalB 0 6 s = true ∧ CadSet.check {} s.sv = 2 ∧ CadSet.check { period := 10 } s.sv = 0 := by decide
/-! Rings and their commands. -/

/-- Partition 0 with ring 0 of 64 slots at 0x20000, enabled, 8 slots made visible; f changes the partition. -/
def ring0 : Ring := { grp := { live := { base := 0x20000, size := 64 }, shadow := {} }, enable := true, tail := 8 }
def devC (f : Part → Part := id) : State := { dev with parts := [(0, f { (dev.part 0) with rings := [(0, ring0)] })] }
/-- A command's slots: opcode, flags, LEN, TALLY, SEQUENCE 7, and its operand bytes from 16. -/
def cmd (op : Nat) (body : List Byte) (flags : Nat := 0) (tally : Nat := 0) : List Byte :=
  let n := (16 + body.length + 63) / 64
  padTo (64 * n) (leBytes 1 op ++ leBytes 1 flags ++ leBytes 2 (n - 1) ++ leBytes 4 tally ++ leBytes 4 7 ++ leBytes 4 0 ++ body)

/-- The conditions of Begins but for its two names. -/
def beginsB (op flags min : Nat) (used : List (Nat × Nat)) (c : List Byte) (s : State) : Bool :=
  s.canStart 0 0 (cmdBytes op c) && (s.slotCode 0 0 (cmdBytes op c)).1 == 0 && !cmdBad (cmdBytes op c) flags min used

theorem begins_of (op flags min : Nat) (used : List (Nat × Nat)) (c : List Byte) (s : State) (h : beginsB op flags min used c s = true) :
    Begins op flags min used 0 0 c s (cmdBytes op c) (s.begin 0 0 (cmdBytes op c)).1 (s.begin 0 0 (cmdBytes op c)).2 := by
  simp only [beginsB, Bool.and_eq_true, beq_iff_eq, Bool.not_eq_true'] at h
  exact ⟨rfl, h.1.1, h.1.2, h.2, rfl⟩
/-- Command 0 after a row has run. -/
def ran (i : Instr) (s : State := devC) : Cmd := (after i s).cmd 0 0

theorem test_ring_rows_met :
    ∀ r ∈ ringRows, dev.canStart 0 0 (cmdBytes r.op (cmd r.op [])) = false ∧ (devC).canStart 0 0 (cmdBytes r.op (cmd r.op [])) = true ∧
      ((devC).slotCode 0 0 (cmdBytes r.op (cmd r.op []))).1 = 0 ∧ cmdBad (cmdBytes r.op (cmd r.op [] 0x80)) r.flags r.min r.used = true := by decide
/-- A ring at an address that nothing maps. -/
theorem test_ring_unmapped : ((devC fun x => { x with rings := [(0, { ring0 with grp := { ring0.grp with live := { base := 0x50000, size := 64 } } })] }).slotCode 0 0
    (cmdBytes 1 (cmd 1 []))).1 = 3 := by decide
theorem test_doorbell_met : (devC).hears 0 = true ∧ (devC).rel 3 = true ∧ ((devC).bound 0).contains 0 = true ∧ ((devC).bound 1).contains 0 = false ∧
    modSub two32 8 0 = 8 ∧ modSub two32 64 8 = 56 ∧ modSub two32 65 8 = 57 ∧ ((devC).ring 0 0).skip = 0 ∧
    ((after (.cmdDoorbell 0 0 0 64) devC).ring 0 0).tail = 64 ∧ ((after (.cmdDoorbell 0 0 0 65) devC).part 0).dbBad = 1 ∧
    after (.cmdDoorbell 0 0 0 8) devC = devC := by decide
theorem test_ring_control_met :
    let s := devC fun x => { x with rings := [(0, { ring0 with guilty := true })] }
    partB 0 2 0 s = true ∧ partB 0 13 0 s = true ∧ partB 0 10 0 s = true ∧ (s.ring 0 0).guilty = true ∧ ((devC).ring 0 0).guilty = false ∧
    (∀ e ∈ (s.part 0).cmds, e.2.wait ≠ .sumpSpace) ∧ (s.part 0).flt.hold = [] ∧ (s.part 0).flt.ovEssential + (s.part 0).flt.ovInfo = 0 ∧
    (s.part 0).en.hold = [] ∧ (s.part 0).en.waiting = [] ∧ s.isPrimaryPf 0 = true ∧ s.flt.ring.hold = [] ∧
    ((after (.ringResume 0 0) s).ring 0 0).resumed = true ∧ ((after (.guilty 0 0) devC).ring 0 0).guilty = true := by decide
/-- The ring after a LAUNCH that holds two gangs has begun. -/
def devG2 : State := { (devC fun x => { x with
  rings := [(0, { ring0 with started := [3], next := 2 })]
  cmds := [(3, { bytes := launchBytes, wait := .gangs, slots := 2 })] }) with gangs := [(9, { gang0 with k := { gang0.k with cmd := 3 } })] }
theorem test_guilty_met : ((devG2).ring 0 0).guilty = false ∧ (3, devG2.cmd 0 3) ∈ (devG2.part 0).cmds ∧ (devG2.cmd 0 3).ring = 0 ∧
    (devG2.gang 9).live = true ∧ (devG2.gang 9).k.part = 0 ∧ (devG2.gang 9).k.cmd = 3 ∧
    ((devG2.guilty 0 0 1).gang 9).live = false ∧ ((devG2.guilty 0 0 1).ring 0 0).head = 2 := by decide
theorem test_retire_met :
    let s := after (.timeWait 0 0 (cmd 0x0B (leBytes 8 0))) devC
    let u := after (.timeWait 0 0 (cmd 0x0B (leBytes 8 9))) devC
    ((s.part 0).cmds.any fun e => e.1 == 0) = true ∧ s.frontOn = true ∧ (s.cmd 0 0).wait = .done ∧ s.mayRetire 0 0 = true ∧
    ((after (.commandRetire 0 0) s).ring 0 0).retired = 1 ∧ ((after (.commandRetire 0 0) s).ring 0 0).head = 1 ∧
    (u.cmd 0 0).wait = .time 9 ∧ after (.commandRetire 0 0) u = u := by decide

def launchCmd (threads : Nat) (stage : Nat := 0) : List Byte :=
  cmd 0x01 (leBytes 1 stage ++ leBytes 1 0 ++ leBytes 1 1 ++ leBytes 1 0 ++ leBytes 4 threads ++ leBytes 8 0x10000 ++ leBytes 4 0 ++ leBytes 4 4096 ++
    leBytes 4 0 ++ leBytes 2 0 ++ [1, 1] ++ leBytes 8 0x10200 ++ [5])
def devS : State := devC fun x => { x with plc := { x.plc with stages := [(0, { declared := true, size := 1, district := 1 })] } }
theorem test_launch_met :
    beginsB 1 1 0 [(16, 41), (64, 64)] (launchCmd 40) devS = true ∧ launchBad (cmdBytes 1 (launchCmd 40)) = false ∧ launchBad (cmdBytes 1 (cmd 1 (leBytes 48 0))) = true ∧
    (ran (.launch 0 0 (launchCmd 40)) devS).wait = .gangs ∧ (ran (.launch 0 0 (launchCmd 40)) devS).gangs = 2 ∧
    (ran (.launch 0 0 (launchCmd 0)) devS).wait = .done ∧ (ran (.launch 0 0 (launchCmd 40 3)) devS).code = 2 ∧ (ran (.launch 0 0 (cmd 1 (leBytes 48 0))) devS).code = 1 := by decide
def graphs0 : Tab Graph := [(0, { current := some 1, vers := [{ version := 1, nodes := [padTo 256 (cmd 0x0B [])] }] })]
def patchCmd (nodes first count expect del : Nat) : List Byte :=
  cmd 0x03 (leBytes 2 0 ++ leBytes 2 nodes ++ leBytes 2 first ++ leBytes 2 count ++ leBytes 4 expect ++ leBytes 4 del ++ leBytes 8 0x10300)
/-- The image of one TIME_WAIT node lies at 0x10300. -/
def devP : State := let t := devC fun x => { x with graphs := graphs0 }; { t with mem := { t.mem with dev := [(0x10300, 0x0B#8)] } }
theorem test_graph_met :
    beginsB 3 0 0 [(16, 14), (32, 8)] (patchCmd 1 0 1 1 0) devP = true ∧ devP.asOn 0 0 = true ∧
    ((devP.vread (tlbCp 0) 0 0 0x10300 256).any fun e => !e.2 && !nodeBad 0 e.1) = true ∧
    ((after (.graphPatch 0 0 (patchCmd 1 0 1 1 0)) devP).graph 0 0).current = some 2 ∧ ((after (.graphPatch 0 0 (patchCmd 0 0 0 1 1)) devP).graph 0 0).current = none ∧
    (ran (.graphPatch 0 0 (patchCmd 1 0 1 5 0)) devP).code = 9 ∧ (ran (.graphPatch 0 0 (patchCmd 1 0 1 0 1)) devC).code = 2 ∧
    beginsB 2 1 0 [(16, 2), (20, 4)] (cmd 2 (leBytes 8 0)) devP = true ∧ (ran (.graphLaunch 0 0 (cmd 2 (leBytes 8 0))) devP).wait = .nodes ∧
    (ran (.graphLaunch 0 0 (cmd 2 (leBytes 2 0 ++ leBytes 2 0 ++ leBytes 4 7))) devP).code = 9 ∧
    (ran (.graphLaunch 0 0 (cmd 2 (leBytes 8 256))) devP).code = 1 := by decide

def semCmd (op va v : Nat) : List Byte := cmd op (leBytes 8 va ++ leBytes 8 0 ++ leBytes 8 v)
theorem test_fences_waits_met :
    beginsB 6 2 0 [(16, 9), (32, 8)] (semCmd 6 0x10400 5) devC = true ∧ (devC).semAt 0 0 0x10400 = some 0x10400 ∧ (devC).poisonAt 0x10400 = false ∧
    (after (.fenceSignal 0 0 (semCmd 6 0x10400 5)) devC).mem.dev.byte 0x10400 = 5#8 ∧ (ran (.fenceSignal 0 0 (semCmd 6 0x10401 5))).code = 1 ∧
    (ran (.fenceSignal 0 0 (semCmd 6 0x50000 5))).code = 3 ∧
    beginsB 7 0 0 [(16, 9), (32, 8)] (semCmd 7 0x10400 5) devC = true ∧ (ran (.fenceWait 0 0 (semCmd 7 0x10400 5))).wait = .sem 0x10400 5 ∧
    (ran (.fenceWait 0 0 (semCmd 7 0x10400 0))).wait = .done ∧
    beginsB 0x0B 0 0 [(16, 8)] (cmd 0x0B (leBytes 8 9)) devC = true ∧ beginsB 0x0C 0 0 [(16, 2)] (cmd 0x0C (leBytes 2 3)) devC = true ∧
    (ran (.gateWait 0 0 (cmd 0x0C (leBytes 2 3)))).wait = .gate 3 ∧
    ((after (.timeWaitReached 0 0) { (after (.timeWait 0 0 (cmd 0x0B (leBytes 8 9))) devC) with tim := { now := 9 } }).cmd 0 0).wait = .done := by decide

def condCmd (skip v : Nat) : List Byte := cmd 0x08 (leBytes 8 0x10400 ++ [0, 0] ++ leBytes 2 skip ++ leBytes 4 0 ++ leBytes 8 255 ++ leBytes 8 v)
def loopCmd (body count : Nat) : List Byte := cmd 0x09 (leBytes 8 0x10400 ++ [0, 255] ++ leBytes 2 body ++ leBytes 4 count ++ leBytes 16 0)
def callCmd (slots : Nat) : List Byte := cmd 0x0A (leBytes 8 0x20000 ++ leBytes 4 0 ++ leBytes 4 slots)
theorem test_tests_loops_met :
    beginsB 8 0 0 [(16, 12), (32, 16)] (condCmd 1 0) devC = true ∧ testHolds (cmdBytes 8 (condCmd 1 0)) 256 = true ∧ testHolds (cmdBytes 8 (condCmd 1 0)) 1 = false ∧
    (ran (.cond 0 0 (condCmd 1 1))).wait = .done ∧ ((after (.cond 0 0 (condCmd 1 0)) devC).ring 0 0).next = 2 ∧
    beginsB 9 0 0 [(16, 32)] (loopCmd 1 2) devC = true ∧ (ran (.loop 0 0 (loopCmd 1 2))).wait = .loopEnd ∧
    ((after (.loop 0 0 (loopCmd 1 2)) devC).ring 0 0).frames = [.loop 0 1 1 1 0] ∧ ((devC).ring 0 0).loops < 4 ∧
    (devC).span 0 0 1 1 = (1, true) ∧ ((devC).span 0 0 9 1).2 = false ∧ ((devC fun x => { x with rings := [(0, { ring0 with tail := 1, grp := { ring0.grp with live := { base := 0x20000, size := 2 } } })] }).span 0 0 3 1).1 = 3 ∧
    ((State.iterate (after (.loop 0 0 (loopCmd 1 2)) devC) 0 0).ring 0 0).frames = [.loop 0 1 1 1 1] ∧
    ((State.iterate (after (.loop 0 0 (loopCmd 1 1)) devC) 0 0).ring 0 0).frames = [] ∧
    beginsB 0x0A 0 0 [(16, 9), (28, 4)] (callCmd 2) devC = true ∧ ((after (.ringCall 0 0 (callCmd 2)) devC).ring 0 0).frames = [.call 0 0x20000 0 2 0] ∧
    (ran (.ringCall 0 0 (callCmd (2 ^ 20 + 1)))).code = 1 := by decide

def invalCmd (whole va n : Nat) : List Byte := cmd 0x10 (leBytes 1 0 ++ leBytes 1 whole ++ leBytes 6 0 ++ leBytes 8 va ++ leBytes 8 n)
theorem test_tally_inval_met :
    beginsB 0x0D 0 0 [] (cmd 0x0D [] 0 5) devC = true ∧ beginsB 0x0E 0 0 [] (cmd 0x0E [] 0 5) devC = true ∧
    (Tab.get {} ((after (.tallyOpen 0 0 (cmd 0x0D [] 0 5)) devC).part 0).en.tallies 5).opened = true ∧ (ran (.tallyOpen 0 0 (cmd 0x0D []))).code = 1 ∧
    (ran (.tallyClose 0 0 (cmd 0x0E [] 0 5))).code = 8 ∧
    (let s := devC fun x => { x with en := { x.en with tallies := [(5, { opened := true })] } }
     (ran (.tallyClose 0 0 (cmd 0x0E [] 0 5)) s).wait = .tally ∧ (ran (.tallyOpen 0 0 (cmd 0x0D [] 0 5)) s).code = 8) ∧
    beginsB 0x10 0 0 [(16, 2), (24, 16)] (invalCmd 1 0 0) devC = true ∧ (devC).canBump 0 = true ∧
    ((after (.xltInval 0 0 (invalCmd 1 0 0)) devC).part 0).epoch = 1 ∧ (ran (.xltInval 0 0 (invalCmd 0 0x10000 0))).wait = .done ∧
    (ran (.xltInval 0 0 (invalCmd 0 1 0))).code = 1 := by decide
theorem test_lamp_reserved_met :
    let c := cmd 0x16 (leBytes 8 0x20000 ++ [0])
    beginsB 0x16 0 0 [(16, 9)] c devC = true ∧ (devC).vwritable (tlbCp 0) 0 0 0x20000 16384 = true ∧ ((devC).xlate (tlbCp 0) 0 0 0x20000).isSome = true ∧
    (ran (.lampCheck 0 0 (cmd 0x16 (leBytes 8 0x20001 ++ [0])))).code = 1 ∧ (ran (.lampCheck 0 0 (cmd 0x16 (leBytes 8 0x60000 ++ [0])))).code = 3 ∧
    (ran (.reservedOpcode 0 0 (cmd 0x40 []))).code = 1 ∧ (ran (.reservedOpcode 0 0 (cmd 0x01 []))).code = 1 := by decide
def completeCmd (va : Nat) : List Byte := cmd 0x0F (leBytes 8 va ++ leBytes 4 0 ++ leBytes 4 0xABC)
theorem test_complete_met :
    beginsB 0x0F 2 0 [(16, 10), (28, 4)] (completeCmd 0x10500) devC = true ∧ ((devC).xlate (tlbCp 0) 0 0 0x10500).isSome = true ∧ (devC).xlate (tlbCp 0) 0 0 0x50000 = none ∧
    (after (.complete 0 0 (completeCmd 0x10500)) devC).mem.dev.byte 0x10500 = 7#8 ∧ ((after (.complete 0 0 (completeCmd 0x50000)) devC).part 0).sumpLost = 1 ∧
    (let s := devC fun x => { x with sump := { live := { base := 0x20000, size := 64 }, shadow := {} }, sumpTail := 64 }
     64 ≤ modSub two32 (s.part 0).sumpTail (s.part 0).sumpHead ∧ (ran (.complete 0 0 (completeCmd 0x50000)) s).wait = .sumpSpace) := by decide

/-- A page of port 0's host memory at 2^55, by an entry of the command processor's TLB. -/
def devH (f : Part → Part := id) : State :=
  let s := devC f
  let e : TlbEntry := { part := 0, slot := 0, base := 2 ^ 55, bits := 16, leaf := 0x10000 * 7 + 0x37 }
  { s with mem := { s.mem with tlbs := (tlbCp 0, [e]) :: s.mem.tlbs }, parts := s.parts.map fun y => (y.1, { y.2 with as := [(0, 2 ^ 63)] }) }
theorem test_complete_places : (devH).xlate (tlbCp 0) 0 0 (2 ^ 55 + 64) = some { kind := 1, loc := .host 0 (7 * 65536 + 64) false, r := true, w := true, a := false, x := false } ∧
    (devH).sv.port 0 = 0 ∧ Survey.port { svA with secs := [(1, [1, 1])] } 0 = 1 := by decide
/-- A page of seam 1, on channel 1, which is held, at 0x40000. -/
def devH1 : State :=
  let s := devC fun x => { x with plc := { x.plc with seams := x.plc.seams ++ [(1, { d := { chans := [1], stride := 12, frames := [(0, 1)] } })] } }
  let e : TlbEntry := { part := 0, slot := 0, base := 0x40000, bits := 16, leaf := 2 ^ 56 + 0xF3 }
  { s with mem := { s.mem with tlbs := Tab.set [] s.mem.tlbs (tlbCp 0) (e :: Tab.get [] warm (tlbCp 0)), frames := [(0, [(0, 0, 1), (0, 0, 2), (0, 0, 3), (0, 1, 0)])]
                               chans := s.mem.chans ++ [(1, { state := .held, pages := 1024 })] } }
theorem test_waits_held : (devH1).semAt 0 0 0x40400 = some (2 ^ 31 + 0x400) ∧ (devH1).lineHeld (2 ^ 31 + 0x400) = true ∧
    beginsB 7 0 0 [(16, 9), (32, 8)] (semCmd 7 0x40400 5) devH1 = true ∧ (devC).lineHeld 0x10400 = false := by decide
theorem test_begin_met : ((devC fun x => { x with rings := [(0, { ring0 with past := some 5 })] }).ring 0 0).past = some 5 ∧
    ((devC).ring 0 0).frames = [] ∧ ((devC).ring 0 0).past = none := by decide
/-! Copies, records, captures. -/

/-- A descriptor that copies 4 bytes from 0x10600 to 0x10680, in another space where asked. -/
def desc0 (xp : Nat) (space : Nat := 1) : List Byte :=
  padTo 64 (leBytes 1 space ++ [1, 0, 0] ++ leBytes 2 0 ++ leBytes 2 xp ++ leBytes 8 0x10600 ++ leBytes 8 0x10680 ++ leBytes 4 4 ++ leBytes 4 1)
/-- A device whose memory at 0x10700 holds the descriptor. -/
def devY (d : List Byte) : State := let t := devC; { t with mem := { t.mem with dev := t.mem.dev.write 0x10700 d } }
def copyCmd (va n : Nat) : List Byte := cmd 0x04 (leBytes 8 va ++ leBytes 4 0 ++ leBytes 4 n)
def inlineCmd (dest space n : Nat) : List Byte := cmd 0x05 (leBytes 8 dest ++ [BitVec.ofNat 8 space, 0] ++ leBytes 6 n ++ leBytes n 5)
theorem test_copy_moves_met :
    let s := devC fun x => { x with cmds := [(0, { bytes := cmd 0x04 [], wait := .copies })] }
    let j : CopyJob := { idx := 0, desc := desc0 0, engine := some 0 }
    j.tlb = tlbEngine 0 ∧ j.head = [] ∧ s.writeHeld 0x10680 = false ∧ (s.copyLeaves j.tlb 0 (descOf j.desc) 0x10600 0x10680).lineHeld 0x10600 = false ∧
    copyCut 0x10680 8 128 4 = (4, true) ∧ copyCut 0x10680 8 128 128 = (8, false) ∧
    (s.cmd 0 0).op = 4 ∧ (descOf j.desc).srcSpace = 1 ∧ (descOf j.desc).dstSpace = 1 ∧ (descOf j.desc).xpose = 0 ∧ (descOf j.desc).at_ 0 = (0x10600, 0x10680, 4) ∧
    (s.xlate (tlbEngine 0) 0 0 0x10600).any (fun x => x.r && x.w && x.loc == .dev 0x10600) = true ∧ (s.xlate (tlbEngine 0) 0 0 0x10680).any (fun x => x.w && x.loc == .dev 0x10680) = true ∧
    s.lineHeld 0x10600 = false ∧ s.poisonAt 0x10600 = false ∧ s.xlate (tlbEngine 0) 0 0 0x50000 = none ∧
    (descOf (desc0 2)).xpose = 2 ∧ (descOf (desc0 2)).row % 1 = 0 ∧ (descOf (desc0 1)).xpose = 1 ∧ 0 < (descOf (desc0 1)).row := by decide
theorem test_copy_met :
    beginsB 4 1 0 [(16, 9), (28, 4)] (copyCmd 0x10700 1) (devY (desc0 0)) = true ∧ ((devY (desc0 0)).vread (tlbCp 0) 0 0 0x10700 64) = some (desc0 0, false) ∧
    (devY (desc0 0)).descCode 0 (desc0 0) = 0 ∧ (devY (desc0 0)).descCode 0 (desc0 5) = 1 ∧
    (ran (.copy 0 0 (copyCmd 0x10701 1))).code = 1 ∧ (ran (.copy 0 0 (copyCmd 0x10700 0))).wait = .done ∧ (ran (.copy 0 0 (copyCmd 0x50000 1))).code = 3 ∧
    (ran (.copy 0 0 (copyCmd 0x10700 1)) (devY (desc0 5))).code = 1 ∧
    beginsB 5 1 0 [(16, 11), (32, 960)] (inlineCmd 0x10600 1 3) devC = true ∧ (ran (.copyInline 0 0 (inlineCmd 0x10600 5 3))).code = 1 ∧
    (after (.copyInline 0 0 (inlineCmd 0x10600 1 3)) devC).mem.dev.byte 0x10600 = 5#8 := by decide
theorem test_copy_bytes : (after (.copy 0 0 (copyCmd 0x10700 1)) (let t := devY (desc0 0); { t with mem := { t.mem with dev := (0x10602, 9#8) :: t.mem.dev } })).mem.dev.byte 0x10682 = 9#8 := by decide
theorem test_copy_faults_met :
    let s : State := { (devC fun x => { x with cmds := [(0, { bytes := cmd 0x04 [], wait := .copies })] }) with engines := [(4, { busy := some (0, 0), stalled := true, va := 0x50000 })] }
    partB 0 3 0 s = true ∧ bit (s.faultPending 0) 4 = true ∧ bit (s.faultPending 0) 5 = false ∧ (s.engine 4).busy = some (0, 0) ∧ (s.engine 4).stalled = true ∧
    (s.engine 4).recWait = false ∧ (s.engine 4).action = 0 := by decide
/-- A fault ring of 64 records at 0x30000. -/
def devW : State := devC fun x => { x with fltGrp := { live := { base := 0x30000, size := 64 }, shadow := {} } }
theorem test_fault_records_met :
    devW.dpt.crewUp = true ∧ (devW.part 0).fltGrp.live.size ≠ 0 ∧ modSub two32 (devW.part 0).flt.tail (devW.part 0).flt.head + 1 ≤ 64 ∧
    devW.slotsOk 0 0x30000 64 64 0 1 = true ∧ devW.slotsOk 0 0x50000 64 64 0 1 = false ∧ devW.rel 1 = true ∧
    (devW.fring (some 0)).hold = [] ∧ (devW.frTry (some 0) (leBytes 64 1)).1 = true ∧ (dev.frTry (some 0) (leBytes 64 1)).1 = false ∧
    (devW.frTry none (leBytes 64 1)).1 = true := by decide
def pit0 : PitRec := { kind := 2, source := 1, stage := 0, body := [1], time := 0, cycles := 0, tstatus := 0 }
theorem test_pit_log_met :
    let s : State := { dev with flt := { queue := [pit0, { pit0 with kind := 1 }] } }
    let full : State := { s with flt := { s.flt with writes := List.replicate 64 0, queue := [pit0] } }
    s.dpt.up = true ∧ s.flt.skipped = [] ∧ s.pitFull = false ∧ full.pitFull = true ∧ pitLimited 2 = true ∧ pitLimited 1 = false ∧
    (∀ r ∈ full.flt.queue, pitLimited r.kind = true) ∧ (State.flt { s with flt := { s.flt with skipped := [(2, 1)] } }).skipped ≠ [] ∧
    ((after .pitLogWrite s).flash.pitSeq = 1) ∧ after .pitLogWrite full = full ∧ dev.isPrimaryPf 0 = true ∧ pit0.body.length ≤ 4000 := by decide
theorem test_lamp_met :
    dev.rel 1 = true ∧ (dev.bound 0).contains 0 = true ∧ (dev.bound 0).contains 1 = false ∧ (dev.fn 0).lamp.state = 0 ∧
    ((after (.lampCapture 0 0) dev).fn 0).lamp.state = 1 ∧ ((after (.lampCapture 0 1) dev).fn 0).lamp.code = 1 ∧
    ((after (.lampCapture 0 0) (after (.lampCapture 0 0) dev)).fn 0).lamp.code = 2 ∧ dev.srv.state ≠ .applying := by decide
theorem test_sideband_met :
    let s : State := { dev with rst := { dev.rst with refuge := 1, sbOut := true }, flash := { dev.flash with pit := [{ pit0 with sq := 5 }] } }
    dev.sbOpen = false ∧ dev.rst.sbOut = false ∧ s.rst.sbOut = true ∧ s.sbOpen = true ∧ (s.flash.pit.find? fun x => x.sq == 5).isSome = true ∧ (∀ r ∈ s.flash.pit, r.sq ≠ 6) ∧ s.flt.sbPit = none ∧
    s.flt.sbLamp = [] ∧ s.srv.state ≠ .applying ∧ (after .pitInfo s).flt.sbRsp = [0x81, 0] ++ leBytes 8 5 ++ leBytes 8 5 ∧
    (after .pitInfo { dev with rst := { dev.rst with sbOut := true } }).flt.sbRsp = [0x81, 2] ∧ (after (.pitRead 6 0 1) s).flt.sbRsp = [0x82, 1] := by decide
/-! Placement. -/

/-- The operand of a placement command from its body. -/
def place (op : Nat) (body : List Byte) : List Byte := cmd op (padTo 48 body)
def tensorBody (id size : Nat) (pool flags slot : Nat := 0) : List Byte :=
  leBytes 1 1 ++ leBytes 1 slot ++ leBytes 2 id ++ leBytes 1 pool ++ leBytes 1 0 ++ leBytes 1 flags ++ leBytes 1 0 ++ leBytes 8 0x100000 ++ leBytes 8 size ++ [0, 0xFF]
def stageBody (i lo hi : Nat) : List Byte := [3] ++ leBytes 1 i ++ leBytes 2 lo ++ leBytes 2 hi ++ leBytes 2 0 ++ leBytes 8 5
def convBody (i pr co : Nat) (rdev : Nat := 0) : List Byte := [4] ++ leBytes 1 i ++ leBytes 1 pr ++ leBytes 1 co ++ [1, 8] ++ leBytes 2 rdev
/-- The state after a tensor, a stage and a conveyor have been declared and have retired. -/
def devT : State := [Instr.tensor 0 0 (place 0x11 (tensorBody 5 0x20000)), .stage 0 0 (place 0x11 (stageBody 1 1 2)),
  .conveyor 0 0 (place 0x11 (convBody 3 1 1))].foldl (fun s c => let t := after c s; after (.commandRetire 0 ((t.part 0).nextK - 1)) t) devC
def endCode (i : Instr) (s : State) : Nat := ((after i s).cmd 0 (s.part 0).nextK).code
def waitOf (i : Instr) (s : State) : CmdWait := ((after i s).cmd 0 (s.part 0).nextK).wait

theorem test_place_rows_met : ∀ r ∈ placeRows,
    let b := cmdBytes r.2.1 (r.2.2 (cmd r.2.1 (leBytes 48 0)))
    dev.canStart 0 0 b = false ∧ (devC).canStart 0 0 b = true ∧ ((devC).slotCode 0 0 b).1 = 0 ∧
    cmdBad (cmdBytes r.2.1 (r.2.2 (cmd r.2.1 (leBytes 48 0) 1))) 0 0 [(16, 48)] = true := by decide
theorem test_tensor_met :
    beginsB 0x11 0 0 [(16, 48)] (placeArg 1 (place 0x11 (tensorBody 5 0x20000))) devC = true ∧ (devC).sv.pool 0 0 ≠ none ∧
    (devC).mapped 0 0 0x100000 0x20000 = false ∧ ((devC).part 0).plc.tensors = [] ∧ (devC).sv.grant 0 0 = true ∧
    (devT.tensor 0 5).pages.length = 2 ∧ devT.xlate (tlbCp 0) 0 0 0x110000 ≠ none ∧
    endCode (.tensor 0 0 (place 0x11 (tensorBody 0 0x20000))) devC = 1 ∧ endCode (.tensor 0 0 (place 0x11 (tensorBody 5 0x20000 1))) devC = 3 ∧
    endCode (.tensor 0 0 (place 0x11 (tensorBody 5 0x20000))) devT = 2 := by decide
theorem test_tensor_ok : ∀ sz ∈ [0, 0x20000], let d := slice (cmdBytes 0x11 (placeArg 1 (place 0x11 (tensorBody 5 sz)))) 16 48
    u16 d 2 ≠ 0 ∧ u8 d 4 ≤ 15 ∧ u8 d 5 ≤ 2 ∧ u8 d 6 < 64 ∧ u8 d 7 ≤ 8 ∧ u64 d 8 % 65536 = 0 ∧ u64 d 16 % 65536 = 0 ∧ u64 d 8 + u64 d 16 ≤ 2 ^ 55 ∧
    u8 d 24 ≤ 1 ∧ (u8 d 25 ≤ 63 ∨ u8 d 25 = 0xFF) ∧ bodyZero d [(0, 26)] = true ∧ u64 d 16 = sz := by decide
theorem test_stage_met :
    beginsB 0x11 0 0 [(16, 48)] (placeArg 3 (place 0x11 (stageBody 1 1 2))) devC = true ∧ (devT.stg 0 1).declared = true ∧ (devT.stg 0 1).work = 5 ∧
    endCode (.stage 0 0 (place 0x11 (stageBody 64 1 2))) devC = 1 ∧ endCode (.stage 0 0 (place 0x11 (stageBody 63 5 5))) devC = 5 ∧
    endCode (.stage 0 0 (place 0x11 (stageBody 63 4 4))) devC = 0 ∧ endCode (.stage 0 0 (place 0x11 (stageBody 1 1 2))) devT = 2 := by decide
theorem test_conveyor_met :
    beginsB 0x11 0 0 [(16, 48)] (placeArg 4 (place 0x11 (convBody 3 1 1))) devT = true ∧ (devT.conv 0 3).declared = true ∧ (devT.conv 0 3).pages.length = 1 ∧
    (devT).grantFit 0 2048 = none ∧ endCode (.conveyor 0 0 (place 0x11 (convBody 4 0xFF 0xFF))) devT = 1 ∧ endCode (.conveyor 0 0 (place 0x11 (convBody 4 2 2))) devT = 3 ∧
    endCode (.conveyor 0 0 (place 0x11 (convBody 3 1 1))) devT = 2 ∧ ((after (.conveyor 0 0 (place 0x11 (convBody 4 1 0xFF 9))) devT).conv 0 4).dead = true := by decide
/-- Region 0 of 2 MiB, unguarded, owned by partition 0 and read by it; 512 free pages and more on two channels. -/
def devQ : State := let s : State := { devC with srv := { applied := some { svA with secs := svA.secs ++ [(4, leBytes 64 1 ++ leBytes 2 0 ++ [0, 0] ++ leBytes 2 1 ++ leBytes 2 0 ++ leBytes 4 1)] } } }
  { s with mem := { s.mem with regions := [(0, { state := .empty })] } }
def regionBody (kind : Nat) : List Byte := leBytes 1 kind ++ [0] ++ leBytes 2 0 ++ leBytes 4 0 ++ leBytes 8 0x200000
theorem test_region_met :
    beginsB 0x11 0 0 [(16, 48)] (placeArg 5 (place 0x11 (regionBody 5))) devQ = true ∧ (devQ.sv.region 0).any (fun d => d.size2m == 1 && d.owner == 0 && bit d.readers 0) = true ∧
    (devQ.region 0).state = .empty ∧ devQ.asOn 0 0 = true ∧ waitOf (.regionLoad 0 0 (place 0x11 (regionBody 5))) devQ = .done ∧
    endCode (.regionLoad 0 0 (place 0x11 (regionBody 5))) devQ = 0 ∧ endCode (.regionMap 0 0 (place 0x11 (regionBody 7))) devQ = 7 ∧
    ((after (.regionLoad 0 0 (place 0x11 (regionBody 5))) devQ).region 0).state = .loading := by decide
def idBody (kind what id : Nat) : List Byte := leBytes 1 kind ++ leBytes 1 what ++ leBytes 2 id
theorem test_seal_release_met :
    beginsB 0x11 0 0 [(16, 48)] (placeArg 6 (place 0x11 (idBody 6 1 5))) devT = true ∧ devT.canBump 0 = true ∧ (devT.tensor 0 5).moving = false ∧ (devT.tensor 0 5).releasing = false ∧
    ((after (.seal 0 0 (place 0x11 (idBody 6 1 5))) devT).tensor 0 5).sealed = true ∧ endCode (.seal 0 0 (place 0x11 (idBody 6 1 6))) devT = 3 ∧
    waitOf (.release 0 0 (place 0x11 (idBody 2 1 5))) devT = .epoch 0 ∧ endCode (.release 0 0 (place 0x11 (idBody 2 3 2))) devT = 3 ∧
    ((after (.release 0 0 (place 0x11 (idBody 2 4 3))) devT).conv 0 3).declared = false := by decide
def queryBody (what id va : Nat) : List Byte := [0] ++ leBytes 1 what ++ leBytes 2 id ++ leBytes 4 0 ++ leBytes 8 va
theorem test_query_pin_met :
    beginsB 0x12 0 0 [(16, 48)] (place 0x12 (queryBody 1 5 0x10800)) devT = true ∧ (devT.placement 0 1 5).isSome = true ∧ devT.vwritable (tlbCp 0) 0 0 0x10800 128 = true ∧
    devT.placement 0 1 6 = none ∧ beginsB 0x13 0 0 [(16, 48)] (place 0x13 ([0, 1] ++ leBytes 2 5 ++ [1])) devT = true ∧ bit (devT.sv.pflags 0) 2 = true ∧
    ((after (.placePin 0 0 (place 0x13 ([0, 1] ++ leBytes 2 5 ++ [1]))) devT).tensor 0 5).pinned = true ∧
    endCode (.placePin 0 0 (place 0x13 ([0, 1] ++ leBytes 2 6 ++ [1]))) devT = 3 := by decide
theorem test_proposals_met :
    devT.dpt.crewUp = true ∧ (devT.proposalOk (.reseam 0 5 [0] 12)).2.2 = true ∧ (devT.proposalOk (.reseam 0 5 [1] 12)).2.2 = false ∧ (devT.tensor 0 5).prop = none ∧
    (devT.proposalOk (.district 0 1 [0, 1])).2.2 = true ∧ (devT.stg 0 1).prop = none ∧ devT.tim.cad.live = none ∧
    (let u := after (.crewProposal (.reseam 0 5 [0] 12)) devT
     (u.tensor 0 5).prop ≠ none ∧ (u.tensor 0 5).pinned = false ∧ (u.part 0).plc.pinnedAll = false ∧ (u.tensor 0 5).quiet = 0) := by decide
def moving (m : Move) : State := devT.updTensor 0 5 fun x => { x with move := some m }
def move0 : Move := { dest := [0], active := true, at_ := 500000 }
/-- A re-seam of tensor 5, in a shot window that a cadence of 1 ms holds open to its end. -/
def devMv : State := { moving move0 with tim := { now := 500000, cad := { live := some { period := 1000000, count := 1, slots := [(0, 999999 * 2 ^ 32 + 4 * 2 ^ 28)] }, begun := true, window := some 0 } } }
theorem test_moves_met :
    (moving { move0 with active := false }).tensor 0 5 ≠ (devMv).tensor 0 5 ∧ (devMv.tensor 0 5).move = some move0 ∧ devMv.nextGroup 0 (devMv.tensor 0 5) move0 ≠ [] ∧
    devMv.canBump 0 = true ∧ devMv.groupFits 500000 1 = true ∧ devMv.groupFits 999999 1 = false ∧ (devMv.groupStep 0 move0 (devMv.nextGroup 0 (devMv.tensor 0 5) move0)).isSome = true ∧
    (State.groupStep (devMv.updSeam 0 3 fun _ => { d := { chans := [5], stride := 12 } }) 0 { move0 with dest := [3] } (devMv.nextGroup 0 (devMv.tensor 0 5) move0)).isNone = true ∧
    ((after (.moveGroupEnd 0 5) devMv).tensor 0 5).move.any (·.done == 1) = true := by decide
/-- Page 2 of channel 0 retired: seam 0's frame 2 is due to move. -/
def devBad (f : Seam → Seam := id) : State := { (devT.updSeam 0 0 f) with flash := { devT.flash with retired := [paOf 0 2 0] } }
theorem test_seam_move_met :
    ((devBad).seam 0 0).active = false ∧ (devBad).moveHolds 0 0 = true ∧ (devBad).seamQuiet 0 0 = true ∧ (devT.seam 0 0).active = false ∧ devT.moveHolds 0 0 = false ∧
    ((after (.forcedMoveStart 0 0) (devBad)).seam 0 0).active = true ∧
    (let s := devBad fun x => { x with active := true, hold := true }
     (s.seam 0 0).region = none ∧ (s.seam 0 0).plan = [] ∧ (s.seam 0 0).goal = none ∧ (s.fixable 0 0).map (·.1) = some 2 ∧ s.moveDue 0 0 = true ∧ s.canBump 0 = true ∧
     (s.seam 0 0).d.chans[2 % 1]? = some 0 ∧ Tab.get 0 (s.seam 0 0).d.frames 2 = 2 + 1 ∧ (s.part 0).plc.zeroing = [] ∧ s.mem.leaving = [] ∧
     Tab.get 0 (((after (.moveGroupEnd 0 65536) s).seam 0 0).d.frames) 2 ≠ 3) := by decide
theorem test_seam_end_met :
    let s := devT.updSeam 0 1 fun x => { x with active := true, hold := true }
    (s.seam 0 1).active = true ∧ s.moveDue 0 1 = false ∧ (s.seam 0 1).last = [] ∧ (s.seam 0 1).used ≠ [] ∧ (∀ e ∈ (s.part 0).plc.tensors, e.2.releasing = false) ∧
    ((after (.moveGroupEnd 0 65537) s).seam 0 1).changes = 1 := by decide
theorem test_move_end_met :
    let m : Move := { move0 with done := 2 }
    let s := moving m
    (s.tensor 0 5).move = some m ∧ m.kind = .reseam ∧ (s.tensor 0 5).pages.length ≤ m.done ∧ m.last = none ∧ (s.tensor 0 5).releasing = false := by decide
theorem test_repoint_met : leafIs (leafWord 0 5 true true false false) 0 5 = true ∧ leafIs (leafWord 0 6 true true false false) 0 5 = false := by decide
/-! Time, cadence, reduction. -/

def withTim (t : Tim) : State := { dev with tim := t }
theorem test_tim_set_met :
    globalB 0 6 dev = true ∧ dev.tim.state = .free ∧ dev.tim.cad.live = none ∧ (after (.timSet 0 1000001) dev).tim.now = 1000001 ∧
    (after (.timSet 0 1000000) dev).tim.slew = 65536000000 ∧ after (.timSet 0 5) (withTim { state := .holdover }) = withTim { state := .holdover } := by decide
theorem test_pps_met :
    let s : State := { withTim { edgeAt := some 0, state := .acquiring, good := 3, stage := 2 ^ 63 + 5, now := 5000000000, delay := 20 } with clk := 1000000000 }
    s.rel 1 = true ∧ bit s.tim.ctrl 0 = true ∧ 999000000 ≤ s.clk - 0 ∧ (after (.ppsEdge 1000) s).tim.state = .lockedPps ∧
    (after (.ppsEdge 1000) s).tim.slew = 20 * 65536 ∧ (after (.ppsEdge 1000) { s with clk := 998999999 }).tim.rejects = 1 ∧ (after (.ppsEdge 999) s).tim.rejects = 1 ∧ s.tim.port = none ∧
    (let t := withTim { ctrl := 1, state := .lockedPps }; bit t.tim.ctrl 1 = false ∧ (after .ppsTimeout t).tim.state = .holdover ∧
      (after .holdoverExpiry (after .ppsTimeout t)).tim.expired = true) := by decide
theorem test_slew_end_met : let s := withTim { now := 7, slew := 65536 }
    s.tim.slew ≠ 0 ∧ s.tim.slewAcc < 125 ∧ (after .slewEnd s).tim.now = 7 + 2000 + 1 ∧ (after .slewEnd s).clk = 2000 := by decide

/-- Device 3, its port 0 up. -/
def devN : State := { dev with fab := { id := 3, source := 1, ports := [(0, { state := .up, width := 3, nbrSerial := 9, nbrId := some 4, nbrPort := 2 })], lsaSeq := 5 } }
def tmsg : TimeMsg := { tTx := 100, echoTx := 50, echoRx := 60, root := 2 ^ 64, cls := 0, hops := 2, serve := true }
theorem test_time_met :
    devN.portUp 0 = true ∧ devN.portUp 1 = false ∧ devN.tim.port = none ∧
    (let s : State := { devN with tim := { ctrl := 5, nbrs := [(0, { tTx := 1 })] } }
     s.source.port = none ∧ (Tab.get {} (after (.time 0 { tmsg with serve := false }) s).tim.nbrs 0).tTx = 100) ∧
    ((after .timeExchangeTimer devN).fabPort 0).out.length = 1 := by decide
/-- A neighbour whose root no device's serial equals is the source. -/
theorem test_time_source_met : let s : State := { devN with tim := { nbrs := [(0, { tTx := 100, root := 18446744073709551616, cls := 0, hops := 2, serve := true })] } }
    s.source.port = some 0 := by
  have h : (18446744073709551616 != Config.devSerial.toNat) = true := by
    have := Config.devSerial.isLt
    simp only [bne_iff_ne, ne_eq]; omega
  simp only [State.source, List.filterMap, h, Bool.and_true]
  decide
/-- The same at the loss of the PPS: the neighbour's CLASS 0 ranks above holdover. -/
theorem test_pps_lost_met : let s : State := { devN with tim := { state := .lockedPps, nbrs := [(0, { tTx := 100, root := 18446744073709551616, cls := 0, hops := 2, serve := true })] } }
    s.tim.port = none ∧ (State.source { s with tim := { s.tim with state := .holdover, expired := false, good := 0 } }).port = some 0 := by
  have h : (18446744073709551616 != Config.devSerial.toNat) = true := by
    have := Config.devSerial.isLt
    simp only [bne_iff_ne, ne_eq]; omega
  refine ⟨rfl, ?_⟩
  simp only [State.source, List.filterMap, h, Bool.and_true]
  decide

/-- A cadence of 100 µs whose slots hold a gate event of levels 0 to 7 of partition 0, a GO of job 7, a window of 20 µs, and a cut, a snapshot and a deadline. -/
def slotV (off ev target : Nat) : Nat := off * 2 ^ 32 + ev * 2 ^ 28 + target
def cad0 : CadSet := { period := 100, count := 7, slots := [(0, slotV 1000 1 255), (1, slotV 2000 2 7), (2, slotV 3000 3 0), (3, slotV 23000 4 0),
  (4, slotV 30000 5 0), (5, slotV 31000 6 0), (6, slotV 40000 7 7)] }
def job0 : Job := {
  state := .armed
  part := 0
  job := 7
  rank := 1
  ranks := 2
  len := 100
  table := [9, 3]
  step := 4
  args := { src := 0x10000, dest := 0x11000, outcome := 0x12000, gscale := 0x3F800000 } }
def devJ (k now : Nat) (j : Job) (f : Part → Part := id) : State := { devN with
  tim := { now := 1000000 + now, cad := { live := some cad0, start := 1000000, begun := true, next := k } }
  jobs := [(2, j)]
  parts := [(0, f (devC.part 0))] }
theorem test_cadence_met :
    (devJ 7 100000 job0).tim.cad.pend = none ∧ (devJ 7 100000 job0).tim.cad.begun = true ∧ (devJ 7 100000 job0).tim.cad.start + cad0.ns ≤ (devJ 7 100000 job0).tim.now ∧
    cad0.ns ≠ 0 ∧ (after .cadencePeriodStart (devJ 7 100000 job0)).tim.cad.start = 1100000 ∧ after .cadencePeriodStart (devJ 7 99999 job0) = devJ 7 99999 job0 ∧
    (let s := devJ 0 1000 job0 fun x => { x with cmds := [(4, { wait := .gate 1 })] }
     s.slotDue 0 1 = some (slotV 1000 1 255) ∧ ((after (.gateOpen 0) s).cmd 0 4).wait = .done) ∧
    (devJ 0 999 job0).slotDue 0 1 = none ∧
    (let s := devJ 1 2000 job0; s.slotDue 1 2 = some (slotV 2000 2 7) ∧ s.jobSlot 7 = some 2 ∧ (s.job 2).rank ≠ 0 ∧ ((after (.go 1) s).job 2).state = .running) ∧
    (let s := devJ 2 3000 job0; s.slotDue 2 3 ≠ none ∧ s.srv.state ≠ .waiting ∧ (after (.shotBegin 2) s).tim.cad.window = some 20000) ∧
    (let s := devJ 3 23000 job0; s.slotDue 3 4 ≠ none ∧ (after (.shotEnd 3) s).tim.cad.next = 4) ∧
    (let s := devJ 4 30000 job0; s.slotDue 4 5 ≠ none ∧ s.ckwOn = true) ∧
    (let s := devJ 5 31000 job0; s.slotDue 5 6 ≠ none ∧ (after (.snapshot 5) s).tim.snap = 1031000) ∧
    (let s := devJ 6 40000 job0; s.slotDue 6 7 ≠ none) := by decide

/-- Partition 0 may join job 7; the rank table [9, 3] lies at 0x13000. -/
def devV : State := let s := devJ 0 0 {}; { s with srv := { applied := some { svA with secs := svA.secs ++ [(9, leBytes 64 1 ++ [0, 0] ++ leBytes 2 0 ++ leBytes 2 9)] } }
                                                   mem := { s.mem with dev := [(0x13000, 9#8), (0x13002, 3#8)] } }
def joinBody (id rank ranks : Nat) : List Byte := leBytes 2 id ++ leBytes 2 rank ++ leBytes 2 ranks ++ [0, 0] ++ leBytes 4 100 ++ [0, 0, 0, 0] ++ leBytes 8 0x13000
theorem test_join_met :
    beginsB 0x14 0 0 [(16, 48)] (joinArg 0 (place 0x14 (joinBody 7 1 2))) devV = true ∧ (devV.sv.grant 0 2 && devV.sv.jobOk 0 7) = true ∧ devV.devId = some 3 ∧
    devV.jobSlot 7 = none ∧ devV.vread (tlbCp 0) 0 0 0x13000 4 = some ([9#8, 0#8, 3#8, 0#8], false) ∧ ((after (.redJoin 0 0 (place 0x14 (joinBody 7 1 2))) devV).job 0).table = [9, 3] ∧
    endCode (.redJoin 0 0 (place 0x14 (joinBody 7 0 2))) devV = 0x42 ∧ endCode (.redJoin 0 0 (place 0x14 (joinBody 17 1 2))) devV = 0x0A ∧
    endCode (.redJoin 0 0 (place 0x14 (joinBody 7 2 2))) devV = 1 ∧
    (let s : State := { devV with jobs := [(2, { job0 with state := .joined })] }
     endCode (.redJoin 0 0 (place 0x14 (joinBody 7 1 2))) s = 0x40 ∧ beginsB 0x14 0 0 [(16, 48)] (joinArg 1 (place 0x14 (leBytes 2 7))) s = true ∧
     ((after (.leave 0 0 (place 0x14 (leBytes 2 7))) s).job 2).state = .free) ∧
    endCode (.leave 0 0 (place 0x14 (leBytes 2 7))) { devV with jobs := [(2, job0)] } = 0x43 := by decide
def stepBody (stp : Nat) : List Byte := leBytes 2 7 ++ leBytes 2 0 ++ leBytes 4 stp ++ leBytes 8 0x10000 ++ leBytes 8 0x11000 ++ leBytes 8 0x12000
theorem test_step_met : let s : State := { devV with jobs := [(2, { job0 with state := .joined, at_ := { whole := some 5 } })] }
    beginsB 0x15 0 0 [(16, 48)] (place 0x15 (stepBody 6)) s = true ∧ s.jobSlot 7 = some 2 ∧ s.rangeOk 0 0 0x10000 400 (Xl.mem · true false) = true ∧
    s.rangeOk 0 0 0x11000 160 (Xl.mem · false true) = true ∧ s.vwritable tlbNone 0 0 0x12000 8 = true ∧
    ((after (.redStep 0 0 (place 0x15 (stepBody 6))) s).job 2).state = .armed ∧ ((after (.redStep 0 0 (place 0x15 (stepBody 5))) s).job 2).state = .joined ∧
    endCode (.redStep 0 0 (place 0x15 (stepBody 6))) { devV with jobs := [(2, job0)] } = 0x43 ∧ endCode (.redStep 0 0 (place 0x15 (stepBody 6))) devV = 0x40 := by decide

def rmsg (rank chunk : Nat) : RedMsg := { job := 7, rank := rank, stp := 4, period := 10, chunk := chunk, poison := false, data := List.replicate 60 0x3F800000#32 }
def running : Job := { job0 with state := .running, at_ := { period := 10 } }
theorem test_reduction_met :
    let s : State := { devV with jobs := [(2, running)] }
    s.rel 6 = true ∧ s.jobSlot 7 = some 2 ∧ (s.job 2).step = 4 ∧ (s.job 2).at_.period = 10 ∧ (s.job 2).rank = 0 + 1 ∧ 1 < (s.job 2).chunks ∧
    (s.job 2).tail = 1 ∧ (s.job 2).owner 1 = (s.job 2).rank ∧ (s.contribution (s.job 2) 1).1.isSome = true ∧
    ((after (.redPart { rmsg 0 0 with stp := 3 }) s).part 0).stale = 1 ∧ Tab.get none ((after (.redPart (rmsg 0 1)) s).job 2).at_.sums 1 = some false ∧
    (after (.redPart (rmsg 0 1)) s).mem.dev.byte 0x11003 = 0x3F#8 := by decide
theorem test_decisions_met :
    let s : State := { devV with jobs := [(2, { running with state := .deciding, at_ := { period := 10, verdicts := [(1, 1)] } })] }
    let v := after (.redVerdict { rmsg 0 0 with data := [1#32] }) s
    (s.job 2).state = .deciding ∧ (s.job 2).rank = (s.job 2).tail ∧ (v.job 2).state = .joined ∧ (v.job 2).at_.whole = some 4 ∧
    ((after (.decisionTimeout 7) s).job 2).at_.code = 2 ∧
    (let t : State := { devV with jobs := [(2, { running with state := .deciding, rank := 0, table := [3, 9] })] }
     (t.job 2).rank ≠ (t.job 2).tail ∧ ((after (.noDecisionTimeout 7) t).job 2).at_.code = 5 ∧ ((after (.redDecision { rmsg 1 0 with data := [1#32] }) t).job 2).at_.code = 1) ∧
    ((∀ r < 2, Tab.get 0 ([(0, 1), (1, 1)] : Tab Nat) r ≠ 3 ∧ Tab.get 0 ([(0, 1), (1, 1)] : Tab Nat) r ≠ 0)) := by decide
theorem test_update_met :
    let s : State := { devV with jobs := [(2, { running with mode := 1, rule := 0, stateVa := 0x14000, rank := 0, ranks := 2, table := [3, 9] })] }
    (s.job 2).owner 0 = 0 ∧ (s.redRead (s.job 2) ((s.job 2).tagAt 0) 4).1.isSome = true ∧
    Tab.get false ((after (.redParam { rmsg 1 1 with data := [0#32] }) s).job 2).at_.params 1 = true := by decide

/-! Channels, agents and adit requests. -/

def withChan (c : Chan) (cad : Cadence := {}) : State := { dev with mem := { dev.mem with chans := [(0, c)], slices := [(1, { wc := [{ line := 1, mask := 3 }] })] }, tim := { cad := cad } }
def live0 : Chan := { state := .live, pages := 1024 }
def held0 : Chan := { live0 with state := .held, hold := .retrain }
/-- A cadence that holds a window. -/
def windows : Cadence := { live := some { period := 100, count := 1, slots := [(0, slotV 3000 3 0)] } }
theorem test_channels_met :
    (let s : State := { withChan {} with mem := { dev.mem with chans := [], trained := false } }
     s.rel 4 = true ∧ (s.chan 5).state = .training ∧ s.mem.trained = false ∧
     (after (.channelTrainingEnd [5]) { s with rst := { s.rst with released := 15 } }).mem.trained = false) ∧
    ((after (.refresh 1) (withChan live0)).chan 0).refs = [0, 1] ∧ after (.refresh 1) (withChan held0) = withChan held0 ∧
    (let s := withChan live0; (Tab.get {} s.mem.slices 1).wc[0]? = some { line := 1, mask := 3 } ∧ Tab.get 0 (after (.wcEntryTimeout 1 0) s).ckw.act 8 = 2) ∧
    after (.wcEntryTimeout 1 0) (withChan held0) = withChan held0 ∧ after (.wcEntryTimeout 1 1) (withChan live0) = withChan live0 ∧
    (∀ s ∈ [withChan live0, withChan live0 windows, withChan held0], ∀ d ∈ stackOf 0, d ≠ 0 → (s.chan d).dueOp = .none) ∧
    (withChan live0 windows).noWindows = false ∧ (withChan live0).noWindows = true ∧ (withChan live0).stackHeld 0 = false ∧ (withChan held0).stackHeld 0 = true ∧
    ((after (.phyMarginLoss 0) (withChan live0 windows)).chan 0).due = .retrain ∧ ((after (.phyMarginLoss 0) (withChan live0)).chan 0).hold = .retrain ∧
    ((after (.urgentRetrain 0) (withChan live0 windows)).chan 0).hold = .urgent := by decide
theorem test_channel_holds_met :
    (let s : State := { withChan live0 with mem := { dev.mem with chans := [(0, live0), (1, held0)] } }
     s.stackHeld 0 = true ∧ ((after (.urgentRetrain 0) s).chan 0).due = .urgent) ∧
    (∀ e ∈ (withChan held0).parts, ∀ k ∈ e.2.cmds, k.2.wait ≠ .copies) ∧ held0.due = .none ∧ held0.failed = [] ∧
    ((after (.channelHoldEnd 0 none) (withChan held0)).chan 0).state = .live ∧
    ((after (.channelHoldEnd 0 none) (withChan { held0 with hold := .repair, failed := [36], spares := [0, 0] })).chan 0).spares = [0, 1] ∧
    ((after (.channelHoldExpiry 0) (withChan held0)).chan 0).state = .dead ∧
    (let s := withChan { live0 with due := .retrain } windows
     s.stackHeld (32 * 0) = false ∧
     ((stackOf (32 * 0)).find? fun c => (s.chan c).state == .live && (s.chan c).dueOp != .none && decide ((s.chan c).dueOp.need ≤ 3000)) = some 0 ∧
     ((s.windowHolds 3000).chan 0).hold = .retrain ∧ ((s.windowHolds 2999).chan 0).hold = .none) := by decide
theorem test_patrol_met :
    (withChan live0).noWindows = true ∧ live0.lines ≠ 0 ∧ (withChan live0).dirtyLine 0 = false ∧ (withChan live0).mem.flips = [] ∧
    (State.disturb (withChan live0) [{ line := 0, cw := 7, sym := 35, err := 15 }]).lineHeld 0 = false ∧ (State.disturb (withChan held0) []).lineHeld 0 = true ∧
    (withChan { live0 with state := .dead }).deadAt 128 = true ∧ (withChan live0).deadAt 0 = false ∧
    ((after (.patrolScrub 0 []) (withChan live0)).chan 0).next = 1 ∧ (after (.patrolScrub 0 [{ line := 0, cw := 7, sym := 35, err := 15 }]) (withChan live0)).mem.ceTotal = 1 ∧
    (let s := withChan { live0 with owed := 2 } { windows with window := some 9 }; s.noWindows = false ∧ ((after (.patrolScrub 0 []) s).chan 0).owed = 1) ∧
    after (.patrolScrub 0 []) (withChan { live0 with owed := 2 } windows) = withChan { live0 with owed := 2 } windows := by decide
def withDir (e : DirEntry) : State := { dev with mem := { dev.mem with dir := [(1, e)] } }
theorem test_crew_agent_met :
    dev.dpt.crewUp = true ∧ dev.dpt.violated = false ∧ dev.reservedPage (523776 * 128) = true ∧ dev.reservedPage 128 = false ∧
    ((after (.agentRequest 88 523776 .read) dev).dirEntry 523776) = { sharers := [88], owner := none } ∧
    (after (.agentRequest 88 1 .read) dev).dpt.crewFails = [0] ∧ (after (.agentRequest 88 1 .read) dev).dpt.crewUp = false ∧
    (let s : State := { dev with dpt := { dev.dpt with crewUp := false } }; after (.agentRequest 88 523776 .read) s = s) ∧
    (let s : State := { dev with dpt := { dev.dpt with violated := true } }; after (.agentRequest 81 1 (.own [1])) s = s) := by decide
theorem test_agents_met :
    dev.rel 4 = true ∧ dev.deadAt 128 = false ∧ ((after (.agentRequest 80 1 .read) (withDir { owner := some 3 })).dirEntry 1) = { sharers := [3, 80], owner := none } ∧
    ((after (.agentRequest 17 1 (.own [1])) (withDir { sharers := [3] })).dirEntry 1) = { sharers := [], owner := some 17 } ∧
    (after (.agentRequest 17 1 (.writeback [1])) (withDir { owner := some 17 })).mem.dev.byte 128 = 1 ∧
    ((after (.agentRequest 17 1 .evict) (withDir { owner := some 17 })).dirEntry 1) = {} ∧ after (.agentRequest 89 1 .evict) (withDir {}) = withDir {} ∧
    Tab.get 0 (after (.agentTimeout 17 1) (withDir { owner := some 17 })).mem.poison 1 = 255 ∧
    (after (.agentTimeout 80 1) (withDir { owner := some 80 })).dpt.up = false ∧ (after (.agentTimeout 81 1) (withDir { sharers := [81] })).dpt.crewUp = false := by decide

/-- Inbound window 2 of partition 0, of one unit, for devices 3 to 9, with every permission; the partition binds it to its slot 0 at 0x10000. -/
def devI : State := { devN with
  srv := { applied := some { svA with secs := svA.secs ++ [(8, leBytes 4256 0 ++ [0, 7, 0, 0] ++ leBytes 4 1 ++ leBytes 2 3 ++ leBytes 2 9 ++ leBytes 4 0)] } }
  parts := [(0, { (dev.part 0) with inBind := [(2, 2 ^ 63 + 2 ^ 16)] })] }
def areq (off len : Nat) (aop : Nat := 0) (data : List Byte := []) : AditReq := { src := 4, window := 2, offset := off, tag := 1, len := len, aop := aop, pmask := 0, data := data }
theorem test_adit_requests_met :
    dev.devId = none ∧ devI.devId = some 3 ∧ devI.aditCheck .rd { areq 0 8 with window := 1 } = (1, 0, 0) ∧ devI.aditCheck .rd { areq 0 8 with src := 10 } = (2, 0, 0) ∧
    (devI.aditCheck .rd (areq 120 16)).1 = 3 ∧ (devI.aditCheck .atom (areq 0 8 11)).1 = 4 ∧ (State.aditCheck { devI with parts := [(0, { (dev.part 0) with inBind := [(2, 2 ^ 63 + 9 * 2 ^ 16)] })] } .wr (areq 8 8)).1 = 5 ∧
    devI.aditCheck .rd (areq 8 8) = (0, 0, 65544) ∧ devI.aditCheck .wr (areq 8 8) = (0, 0, 65544) ∧ devI.aditCheck .atom (areq 8 8) = (0, 0, 65544) ∧
    devI.poisonAt 65544 = false ∧ (after (.aditWr (areq 8 8 0 [1, 2, 3])) devI).mem.dev.byte 65546 = 3 ∧
    (after (.aditAtom (areq 8 4 0 [5])) devI).mem.dev.byte 65544 = 5 ∧
    (let s : State := { devI with mem := { devI.mem with poison := [(512, 255)] } }; s.poisonAt 65544 = true) ∧
    (let s : State := { devI with gangs := [(0, { gang0 with pend := [pend1] })], fab := { devI.fab with tags := [(7, some (.load 0 1 1))] } }
     Tab.get none s.fab.tags 7 = some (.load 0 1 1) ∧ Tab.get none s.fab.tags 8 = none ∧ after (.aditRsp { tag := 7, status := 0, len := 4, pmask := 0, data := [9] }) s ≠ s) ∧
    (let s : State := { devI with subs := [(5, [{ gang := 0, lane := 0, addr := 0, loc := .dev 0, size := 4, data := 1, kind := .plain, stamp := some 1, tag := some 7 }])], fab := { devI.fab with tags := [(7, some (.store 5))] } }
     (((s.dropTag 7).sub 5).find? fun x => x.tag == some 7).isSome = true ∧ (after (.aditRsp { tag := 7, status := 0, len := 4, pmask := 0, data := [] }) s).sub 5 = []) := by decide

/-! The fabric and the conveyors' messages. -/

def fport (x : FabPort) : State := { dev with fab := { id := 3, source := 1, ports := [(0, x)] } }
def hi : HelloMsg := { serial := 2 ^ 64, id := 4, valid := true, port := 2, version := 1, width := 2, leadOffer := true, leader := false, tTx := 9, echo := 0 }
theorem test_ports_met :
    lanesWidth 255 ≠ 0 ∧ lanesWidth 0 = 0 ∧ ((after (.laneSignalDetect 0 255) (fport { state := .detect })).fabPort 0).state = .train ∧
    ((after (.trainComplete 0 255) (fport { state := .train })).fabPort 0).state = .discover ∧
    ((after (.trainTimeout 0) (fport { state := .train })).fabPort 0).cause = 2 ∧ ((after (.discoverTimeout 0) (fport { state := .discover })).fabPort 0).cause = 1 ∧
    ((after (.holdTimeout 0) (fport { state := .hold })).fabPort 0).state = .detect ∧ ((after (.linkLoss 0 3) devN).fabPort 0).state = .hold ∧
    ((after (.frameReplay 0) devN).fabPort 0).replays = 1 ∧ devN.portUp 0 = true ∧ (devN.fabPort 0).state = .up ∧ devN.portUp 1 = false ∧
    globalB 0 7 devN = true ∧ (∀ i < 32, ((fport { state := .detect }).fabPort i).state ≠ .up) ∧ globalB 0 7 (fport { state := .detect }) = true ∧
    ((after (.portHold 0 0 true) (fport { state := .detect })).fabPort 0).state = .disabled ∧ ((after (.retrain 0 0) devN).fabPort 0).cause = 8 := by decide
/-- A serial of 2^64 is no device's. -/
theorem test_not_mine : hi.serial ≠ Config.devSerial.toNat := by have := Config.devSerial.isLt; simp only [hi]; omega
theorem test_hello_met :
    (let x : FabPort := { state := .discover, width := 2, lastTx := 5, hellos := 16, rtt := 5120 }; hi.version = 1 ∧ hi.width = x.width ∧ ¬ (hi.echo = x.lastTx ∧ hi.echo ≠ 0) ∧
     x.rtt ≤ 5120 ∧ 16 ≤ x.hellos ∧ (fport x).fabPort 0 = x) ∧
    ((after (.hello 0 { hi with version := 2 }) (fport { state := .discover, width := 2 })).fabPort 0).cause = 3 ∧
    ((after (.hello 0 { hi with serial := 9, port := 2 }) devN).fabPort 0).echo = 9 ∧
    ((after (.hello 0 { hi with serial := 9, port := 3 }) devN).fabPort 0).state = .hold ∧
    portRate 3 0 = 200 ∧ portRate 2 1024 = 100 ∧ portRate 3 1024 = 128 := by decide

theorem test_lsa_met : let m : LsaMsg := { serial := 9, id := some 4, leadOffer := true, sq := 2, ports := [] }
    m.serial ≠ 2 ^ 64 ∧ (devN.fab.lsdb.find? fun r => r.serial == m.serial) = none ∧ devN.portUp 0 = true ∧ devN.upPorts ≠ [] ∧ devN.dpt.crewUp = true ∧ devN.rel 6 = true ∧
    dev.upPorts = [] ∧ devN.devId = some 3 ∧ m.id ≠ devN.devId := by decide
theorem test_ids_met :
    (let s : State := { devN with fab := { devN.fab with isLeader := true } }; s.fab.isLeader = true ∧ s.dpt.crewUp = true) ∧
    (let s : State := { devN with fab := { devN.fab with source := 0, id := 0 } }
     s.devId = none ∧ s.upPorts ≠ [] ∧ s.rel 6 = true ∧ Survey.fabOpen { svA with secs := [(8, [0, 128])] } = true) ∧ devN.idWaiting = false ∧
    Tab.get false (after (.reach 9) { devN with srv := {} }).fab.reachHold 9 = true := by decide
theorem test_flooded_new_met : devN.isNew 4 hi.serial 2 = true ∧ devN.isNew 5 hi.serial 2 = true := by
  simp [State.isNew, test_not_mine, devN]

def flit0 : Flit := { type := 0x20, hops := 3, dest := 4, src := 5, flow := 6, body := [1] }
/-- Port 0 leads to device 4. -/
def devZ : State := { devN with fab := { devN.fab with routes := [(4, 2 ^ 24)], reach := [(4, true)] } }
theorem test_flits_met :
    devZ.livePorts 4 (2 ^ 32 - 1) = [0] ∧ devZ.livePorts 7 (2 ^ 32 - 1) = [] ∧ routedType flit0.type = true ∧ devZ.devId ≠ some flit0.dest ∧ knownType flit0.type = true ∧
    ((after (.flitForward 0 flit0) devZ).fabPort 0).out = [{ flit0 with hops := 2 }] ∧ (after (.flitForward 0 { flit0 with hops := 0 }) devZ).fab.ttl = 1 ∧
    (after (.flitForward 0 { flit0 with type := 0x18, dest := 7 }) devZ).fab.noRoute = 1 ∧ knownType 0xFF = false ∧ routedType 1 = false ∧ knownType 1 = true ∧ isReq 0x18 = false ∧
    isReq 0x10 = true ∧ devZ.fab.reachSent = [] ∧ pickPort 3 4 0xC000 (devZ.livePorts 4 (2 ^ 32 - 1)) = some 0 ∧
    ((after (.flitForward 0 { flit0 with type := 0x10, dest := 7, src := 4 }) devZ).fabPort 0).out.map (·.type) = [6] := by decide

/-- Conveyor 0 of partition 0, consumed here and produced as 6 on device 4; conveyor 1, produced here and consumed as 7 on device 4. -/
def devX : State := { devZ with
  srv := { applied := some { svA with secs := (8, leBytes 64 0 ++ leBytes 4 1) :: svA.secs } }
  parts := [(0, { (dev.part 0) with plc := { (dev.part 0).plc with conveyors :=
  [(0, { cv0 with producer := 0xFF, dev := 4, rconv := 6, received := 2 }), (1, { cv1 with consumer := 0xFF, dev := 4, rconv := 7, sent := 2, credit := true })] } })] }
theorem test_conveyor_messages_met :
    devX.cvFind 0 4 6 true = some 0 ∧ devX.cvFind 1 4 7 false = some 0 ∧ devX.cvFind 0 4 5 true = none ∧ (devX.conv 0 0).ahead = [] ∧ (devX.conv 0 0).depth = 64 ∧
    ((after (.cvData { src := 4, conveyor := 0, producer := 6, width := 2, sq := 2, entries := [7] }) devX).conv 0 0).buf = [7] ∧
    ((after (.cvData { src := 4, conveyor := 0, producer := 6, width := 2, sq := 1, entries := [7] }) devX).conv 0 0).buf = [] ∧
    ((after (.cvCredit { src := 4, producer := 1, consumer := 7, close := false, received := 1, freed := 1 }) devX).conv 0 1).buf = [2] ∧
    ((after (.cvCredit { src := 4, producer := 6, consumer := 0, close := true, received := 0, freed := 0 }) devX).conv 0 0).closed = true ∧
    devX.cvFind 6 4 0 false = none ∧ ((after (.cvCreditTimer 0 0) devX).conv 0 0).sentRecv = 2 ∧
    (let c := devX.conv 0 1; c.consumer = 0xFF ∧ c.credit = true ∧ c.dead = false ∧ modSub two32 c.sent c.received = 2 ∧ c.buf.length = 2) ∧
    ((after (.cvResend 0 1) devX).fabPort 0).out.map (·.type) = [0x20] ∧ [1#128].length ≤ 192 / cvBytes (devX.conv 0 1).width := by decide

/-! Host ports. -/

/-- Function 0 of port 0 maps slot 0 of partition 0 through BAR2, whose virtual address 0x10000 is page 1. -/
def devB (f : HostPort → HostPort := id) : State := { dev with binds := [(0, 2 ^ 63)], ports := [(0, f { dev.port 0 with hostRid := 0x00FF0000 })] }
def hreq (off : Nat) (rid : Nat := 0) (fn : Nat := 0) : HostReq := { port := 0, rid := rid, fn := fn, off := off, relaxed := false }
def sent (i : Instr) (s : State) : List HostTx := ((after i s).port 0).out
theorem test_bar2_met :
    (devB fun x => { x with dom := .lost }).bar2Reach (hreq 0) = 0 ∧ devB.bar2Reach (hreq 0 0 1) = 1 ∧ devB.bar2Reach (hreq 0x10000) = 2 ∧ devB.bar2Log 0 = 36 ∧
    devB.fnOn 0 = true ∧ (devB.fn 0).cfg.memEn = true ∧ (devB.port 0).dataOk = true ∧ devB.rel 2 = true ∧
    devB.fromHost (hreq 0) = true ∧ devB.fromHost (hreq 0 0x100) = false ∧ dev.bar2Bind 0 = none ∧ devB.bar2Bind 0 = some (0, 0) ∧
    devB.bar2Pieces 0 0 0x10000 8 false = some [(0, 65536, 8)] ∧ devB.bar2Pieces 0 0 0x50000 8 false = none ∧
    sent (.bar2Read (hreq 0x10000) 4) devB = [.completion [0, 0, 0, 0] false true] ∧ sent (.bar2Read (hreq 0x50000) 1) devB = [.completion [0xFF] false true] ∧
    (after (.bar2Write (hreq 0x10001) [7]) devB).mem.dev.byte 65537 = 7 ∧ ((after (.bar2Write (hreq 0x50000) [7]) devB).port 0).bar2Miss = 1 ∧
    devB.landing 0 0 0x10000 1 = false ∧ ((after (.bar2Write (hreq 0x10000 0x100) [7]) devB).port 0).peerRefused = 1 ∧
    (let s : State := { devB with
      srv := { applied := some { svA with secs := (1, [1, 0, 0, 1]) :: svA.secs } }
      parts := [(0, { (dev.part 0) with plc := { (dev.part 0).plc with tensors := [(0, { va := 0x10000, size := 0x10000, flags := 2, slots := [0] })] } })] }
     s.sv.grant 0 0 = true) := by decide

def waitFor (w : Waiter) (k : Cmd) : State := { devB (fun x => { x with reqs := [(3, some w)] }) with parts := [(0, { devC.part 0 with cmds := [(4, k)] })] }
theorem test_completions_met :
    Tab.get none ((waitFor (.word 0 4 0) {}).port 0).reqs 3 = some (.word 0 4 0) ∧ Tab.get none (devB.port 0).reqs 3 = none ∧
    (let k : Cmd := { bytes := condCmd 1 5, slots := 1, wait := .word }; let s := waitFor (.word 0 4 0) k
     (s.cmd 0 4).op = 8 ∧ testHolds (s.cmd 0 4).bytes (leVal (padTo 8 [5])) = true ∧ testHolds (s.cmd 0 4).bytes (leVal (padTo 8 [6])) = false ∧
     ((after (.hostCompletion 0 3 true [6]) s).cmd 0 4).wait = .done ∧ ((after (.hostCompletion 0 3 false []) s).cmd 0 4).code = 4) ∧
    (let k : Cmd := { bytes := cmd 9 (leBytes 8 0x10400 ++ [0, 0] ++ leBytes 2 1 ++ leBytes 4 9 ++ leBytes 8 255 ++ leBytes 8 0), slots := 1, wait := .word }; let s := waitFor (.word 0 4 0) k
     (s.cmd 0 4).op = 9 ∧ testHolds (s.cmd 0 4).bytes (leVal (padTo 8 [0])) = true ∧ testHolds (s.cmd 0 4).bytes (leVal (padTo 8 [6])) = false) ∧
    (let k : Cmd := { bytes := cmd 6 [], slots := 1, wait := .xport, xports := 2 }; let s := waitFor (.xport 0 4) k
     (s.cmd 0 4).xports > 1 ∧ ((after (.hostCompletion 0 3 true []) s).cmd 0 4).xports = 1) ∧
    (let s := waitFor (.xport 0 4) { bytes := cmd 0x0F [], slots := 1, xports := 1 }; (s.cmd 0 4).xports ≤ 1 ∧ (s.cmd 0 4).op = 0x0F) ∧
    (let s : State := { devB (fun x => { x with reqs := [(3, some (.load 0 1 1))] }) with gangs := [(0, { gang0 with pend := [pend1] })] }
     Tab.get none (s.port 0).reqs 3 = some (.load 0 1 1) ∧ after (.hostCompletion 0 3 true [1]) s ≠ s) := by decide

/-- A read waits for a tag; the completion of another's frees it. -/
theorem test_asks_met : let s := devB fun x => { x with reqs := [(3, some (.xport 0 4))], asks := [(0, 0x5000, 4, .load 0 1 1)] }
    (s.port 0).asks = [(0, 0x5000, 4, .load 0 1 1)] ∧ (s.port 0).dom = .ready ∧
    (HostPort.freeTag { s.port 0 with reqs := Tab.set none (s.port 0).reqs 3 none }) = some 0 ∧
    .read 0 0x5000 4 0 ∈ sent (.hostCompletion 0 3 true []) s := by decide

theorem test_config_met :
    sent (.configRequest 0 0 .readRevision) devB = [.completion [0xB0] false true] ∧ sent (.configRequest 0 0 .readVendor) devB = [.completion [0x6E, 0x1F] false true] ∧
    sent (.configRequest 0 1 .readRevision) devB = [.completion [] false false] ∧ sent (.configRequest 0 0 .readRevision) (devB fun x => { x with dom := .lost }) = [.retry] ∧
    sent (.configRequest 0 0 .readRevision) (devB fun x => { x with perst := true }) = [] ∧
    (let s := devB fun x => { x with bar2 := 38 }
     (s.fn 0).cfg.pba = 0 ∧ ((after (.configRequest 0 0 (.resizeBar2 37)) s).fn 0).cfg.bar2Next = 37 ∧ ((after (.configRequest 0 0 (.memEnable false)) s).fn 0).cfg.memEn = false) := by decide

theorem test_port_resets_met :
    (devB.port 0).present = true ∧ (devB.port 0).dom = .ready ∧ (devB.port 1).dom ≠ .ready ∧ (devB.port 0).perst = false ∧
    ((devB fun x => { x with perst := true }).port 0).perst = true ∧ (devB.port 0).linkUp = true ∧ (devB.port 1).linkUp = false ∧
    ((after (.dlDown 0) devB).port 0).dom = .lost ∧ ((after (.perst 0) devB).port 0).dom = .inReset ∧ ((after (.linkRecovery 0) devB).port 0).retrains = 1 ∧
    ((after (.portReady 0 5 4 true) (devB fun x => { x with dom := .lost, hit := true })).port 0).dom = .ready ∧
    (let s : State := { devB with fns := [(0, { cfg := { memEn := true, pba := 2, msixEn := true, table := [(7, 1)] } })] }
     bit (s.fn (16 * 0 + 0)).cfg.pba 1 = true ∧ s.vectorOpen 0 1 = true ∧ s.fnOn 0 = true ∧ .msix 0 1 ∈ sent (.portReady 0 6 8 true) s) ∧
    ((after (.functionLevelReset 0) devB).fn 0).cfg.memEn = false ∧
    (let s : State := { devB with fns := [(0, { cfg := { vfEn := true } })], ports := [(0, { devB.port 0 with vfs := 7 })] }
     s.fnOn 1 = true ∧ ((after (.functionLevelReset 1) s).fn 0).cfg.vfEn = true) ∧
    ((devJ 0 0 job0).job 2).state ≠ .free ∧ ((devJ 0 0 job0).job 2).part = 0 := by decide

/-! The Deputy and the Crew. -/

def mail (i : Instr) (s : State) : Nat × Nat := let m := ((after i s).fn 0).mail; (m.state, m.code)
def withMail (m : FnMail) : State := { dev with fns := [(0, { cfg := { memEn := true }, mail := m })], dpt := { dev.dpt with running := if m.state = 2 then some 0 else none } }
theorem test_mailbox_met :
    dev.hears 0 = true ∧ dev.rel 0 = true ∧ dev.primary = 0 ∧ (dev.fn 0).mail.state = 0 ∧ mail (.svnCommit 0) dev = (2, 0) ∧ mail (.svnCommit 0) (withMail { state := 2 }) = (2, 1) ∧
    mail (.svnCommit 0) { dev with dpt := { dev.dpt with rom := true } } = (4, 2) ∧ mail (.debugLock 0) { dev with rst := { dev.rst with refuge := 2 } } = (4, 0x0C) ∧
    mail (.claimPrimary 0) dev = (4, 3) ∧ mail (.svnCommit 0) { dev with dpt := { dev.dpt with running := some 33 } } = (1, 0) := by decide
/-- The header of a Deputy image without payload, that the checks before the signature accept. -/
def image : List Byte := ascii "OZFW" ++ [1, 0] ++ leBytes 2 0x100 ++ leBytes 4 7 ++ leBytes 4 64 ++ leBytes 4 0 ++ leBytes 4 (0x4A09B0 * 256) ++ leBytes 296 0
def keyBlk : List Byte := leBytes 4 5 ++ [1, 0, 0, 0] ++ leBytes 4 1 ++ leBytes 4 0 ++ leBytes 144 0
theorem test_mailbox_end_met :
    (withMail { state := 2, op := 2 }).dpt.running = some 0 ∧ dev.dpt.up = true ∧ dev.dpt.rom = false ∧
    mail (.mailboxOperationEnd none true) (withMail { state := 2, op := 2 }) = (3, 0) ∧ mail (.mailboxOperationEnd none true) (withMail { state := 2, op := 1 }) = (4, 4) ∧
    mail (.mailboxOperationEnd none true) (withMail { state := 2, op := 4, arg := 0x10000 }) = (3, 0) ∧ mail (.mailboxOperationEnd none true) (withMail { state := 2, op := 5 }) = (4, 0x0C) ∧
    mail (.mailboxOperationEnd none true) (withMail { state := 2, op := 6 }) = (3, 0) ∧
    (mailUpdate 0 (some [1]) true dev).1 = 5 ∧ image.length = 320 ∧ u32 image 0x0C = 64 ∧ u32 image 0x14 / 256 = 0x4A09B0 ∧ u64 keyBlk 16 = 0 ∧ u32 keyBlk 8 = 1 ∧
    keyBlk.length = 160 ∧ dev.flash.counters.length = 4 ∧ (∀ c ∈ dev.flash.counters, c.2 ≠ 0) ∧
    (let f := { dev.flash with counters := [(9, 0), (9, 4)] }
     State.raiseCounter { dev with flash := f } 0 9 = some { dev with flash := f } ∧ State.raiseCounter { dev with flash := f } 0 10 = none ∧
     (State.raiseCounter { dev with flash := f } 1 12).map (·.flash.counters) = some [(9, 0), (12, 3)]) ∧
    paPage 0x10000 < dev.pagesOn (paChan 0x10000) ∧ dev.isPrimaryPf 0 = true ∧ dev.flash.retired.length < 65536 ∧ (mailRetire 0 0x10000 true dev).2.2.flash.retired = [0x10000] ∧
    (mailRetire 0 (1025 * 65536) true dev).1 = 0x0B ∧
    (let s : State := { dev with clk := 1000000000, ports := [(0, { dom := .lost })] }; mailClaim 16 s = (0, 0, (mailClaim 16 s).2.2) ∧ (mailClaim 16 s).2.2.primary = 1) := by decide

def spdm (v c a : Bool) : State := { dev with fns := [(0, { cfg := { spdmVer := v, spdmCaps := c, spdmAlgs := a } })] }
theorem test_attestation_met :
    dev.fnOn 0 = true ∧ (dev.port 0).dom = .ready ∧ dev.dpt.up = true ∧ negotiated ((spdm true true true).fn 0).cfg = true ∧ negotiated ((spdm true true false).fn 0).cfg = false ∧
    ((after (.getVersion 0) dev).fn 0).cfg.doe = [0x10, 4, 0, 0, 0, 1, 0, 0x12] ∧ ((after (.getCapabilities 0) (spdm true false false)).fn 0).cfg.doe.take 4 = [0x12, 0x61, 0, 0] ∧
    ((after (.getCapabilities 0) dev).fn 0).cfg.doe = [0x12, 0x7F, 4, 0] ∧ ((after (.negotiateAlgorithms 0 true true) (spdm true true false)).fn 0).cfg.spdmAlgs = true ∧
    ((after (.challenge 0 1 []) (spdm true true true)).fn 0).cfg.doe = [0x12, 0x7F, 1, 0] ∧ after (.getVersion 1) dev = dev ∧ dev.dpt.unlock < 65536 := by decide

def sv13 : Survey := { svA with secs := (13, leBytes 64 0 ++ leBytes 4 2) :: svA.secs }
def blk : UnlockBlk := { challenge := [1], mask := 1, crew := false, key := some 5, vendorPub := [], sig := [] }
theorem test_unlock_met :
    let s : State := { dev with srv := { applied := some sv13 }, dpt := { dev.dpt with challenge := some [1] }, flash := { dev.flash with keys := [(5, [])] } }
    s.dpt.up = true ∧ s.dpt.challenge = some blk.challenge ∧ (s.flash.keys.find? fun x => x.1 == 5) = some (5, []) ∧
    (∀ p < 16, bit (blk.mask % 65536) p = true → s.sv.valid p = true ∧ s.sv.jtagDebug p = true) ∧ (s.flash.counters.getD 3 (0, 0)).2 ≠ 0 ∧ 4 ≤ s.flash.counters.length ∧
    after (.unlock { blk with challenge := [2] }) s = s ∧ after (.unlock { blk with key := some 6 }) s = s := by decide
theorem test_crew_met :
    dev.dpt.crewUp = true ∧ dev.dpt.violated = false ∧ crewMay .bootRom false = false ∧ crewMay .crewWork true = true ∧ dev.reservedPage (1023 * 65536) = true ∧ dev.reservedPage 0 = false ∧
    (after (.crewAccess 0 .bootRom false 0 0) dev).dpt.crewUp = false ∧ (let s : State := { dev with dpt := { dev.dpt with crewImg := some [7, 0, 0, 0, 0, 0, 0, 0] } }
     s.dpt.crewIn .crewWork 8 = true ∧ s.dpt.crewIn .crewWork 7 = false ∧ s.dpt.crewIn .crewWork (48 * 2 ^ 20 - 7) = false ∧ s.dpt.crewIn .crewImage 0 = true ∧ s.dpt.crewIn .srv (2 ^ 20) = true ∧
     (after (.crewAccess 0 .crewWork true 8 5) s).dpt.crewMem = [(8, 5)] ∧ (after (.crewAccess 0 .crewImage false 0 0) s).dpt.crewRead = 7) ∧
    (after (.crewAccess 0 .reserved true (1023 * 65536 + 9) 5) dev).mem.dev = [(1023 * 65536 + 8, 5)] ∧ (after (.crewHeartbeatMiss 1) dev).dpt.crewFails = [0] ∧
    (let s : State := { dev with dpt := { dev.dpt with crewUp := false } }; s.crewGood = true ∧ s.rst.stage = 10 ∧ s.rst.refuge = 0 ∧ (after .crewReloadEnd s).dpt.crewUp = true) ∧
    (let t := after (.deputySelfReset 4) { withMail { state := 2, op := 2 } with srv := { state := .fetching } }
     t.dpt.up = false ∧ (t.fn 0).mail.code = 0x10 ∧ t.srv.code = 0x17 ∧ t.dpt.why = some 4 ∧ (after .deputyRestartEnd t).dpt.up = true ∧
     (t.pickDeputy true true).isSome = true ∧ State.pickDeputy { t with flash := { t.flash with dep0 := { ok := false }, dep1 := { ok := false } } } true true = none) := by decide

/-! Energy, power and the whole device. -/

theorem test_split_met : split 10 [1, 2, 0, 3] = [2, 3, 0, 5] ∧ split 10 [0, 0] = [0, 0] ∧ split 10 [3, 3, 3] = [4, 3, 3] := by decide
def sample : Sample := { pj := [1000, 2000, 3000, 4000], volts := [], temp := [] }
def devE : State := { dev with
  ckw := { act := [((2 ^ 40 + 5) * 16 + 1, 7), ((2 ^ 40 + 6) * 16 + 1, 9), (8, 2)] }
  parts := [(0, { (dev.part 0) with en := { hold := [{ signed := some [], body := [] }, { signed := none, body := List.replicate 192 0#8 }] } })] }
theorem test_energy_met :
    devE.sv.parts = [0] ∧ (∀ p < 16, (devE.part p).en.total.length = 6) ∧ (∀ x ∈ devE.ckw.act, x.1 / 16 = 0 ∨ (1 ≤ x.1 / 16 / 2 ^ 40 ∧ x.1 / 16 / 2 ^ 40 ≤ 16)) ∧
    (∀ n, (devE.sv.staticTo = some n ∨ devE.sv.idleTo = some n) → n ∈ devE.sv.parts) ∧ State.reset.sv.parts = [] := by
  refine ⟨by decide, by decide, by decide, ?_, by decide⟩
  have a : devE.sv.staticTo = some 0 ∨ devE.sv.staticTo = none := by decide
  have b : devE.sv.idleTo = some 0 ∨ devE.sv.idleTo = none := by decide
  have c : devE.sv.parts = [0] := by decide
  rw [c]
  rintro n (h | h)
  · rcases a with a | a <;> simp_all
  · rcases b with b | b <;> simp_all
theorem test_metering_met :
    devE.rel 1 = true ∧ State.reset.rel 1 = false ∧
    after (.autoCut sample) devE = devE ∧ 1000000 ≤ 1000000 - devE.ckw.winAt ∧ 10000000 ≤ 10000000 - devE.ckw.cutAt ∧
    devE.holdRoom 0 = true ∧ (after (.referenceCheck 2 1001) devE).ckw.winRecal = true ∧ (after (.referenceCheck 2 5001) devE).ckw.faulty = [2] ∧
    (after .checkweigherSelfReset devE).rst.ckwSelf = 1 ∧ devE.sv.valid 0 = true ∧ devE.part 0 ≠ {} := by decide
theorem test_energy_sign_met : let x : ERec := { signed := none, body := List.replicate 192 0#8 }
    (devE.part 0).en.hold = [{ signed := some [], body := [] }] ++ x :: [] ∧ x.body.length = 192 ∧ devE.dpt.up = true ∧ (devE.part 0).en.fault = false := by decide

theorem test_resets_met :
    dev.dpt.running = none ∧ dev.rst.pwrGood = true ∧ dev.rst.sysRstN = true ∧ (after .pwrGoodFall dev).rst.cause = 1 ∧ (after (.sysRstNLow 1000) dev).rst.cause = 2 ∧
    (let s : State := { dev with clk := 30000000000, rst := { dev.rst with armed := true } }; (after .bootWatchdog s).rst.cause = 4) ∧ (after (.sequencerSelfReset true) dev).rst.cause = 5 ∧
    (after (.sequencerSelfReset false) dev).rst.seqSelf = 1 ∧ (after (.dieFatal 3) dev).rst.cause = 6 ∧
    (let s : State := { dev with clk := 1000000, rst := { dev.rst with softPending := some 0 } }; (after .softwareResetDelay s).rst.cause = 3) ∧
    (let s : State := { dev with rst := { dev.rst with pwrGood := false } }; (after (.pwrGoodRise true) s).rst.released = 1) ∧
    (let s : State := { dev with rst := { dev.rst with sysRstN := false } }; (after .sysRstNHigh s).rst.released = 1) ∧
    (let s : State := { dev with rst := { dev.rst with refuge := 2 } }; globalB 0 12 s = true ∧ s.rst.powering = false ∧ (after (.exitRefuge 0) s).rst.cause = 3) := by decide
theorem test_reset_operations_met :
    globalB 0 12 dev = true ∧ dev.rst.powering = false ∧ dev.rst.refuge = 0 ∧ (after (.fullReset 0) dev).rst.softPending = some 0 ∧ (after (.powerDown 0) dev).rst.powering = true ∧
    (∀ e ∈ dev.gangs, e.2.live = true → coreOf e.1 / 144 ≠ 1) ∧ (after (.tierReset 0 1) dev).rst.tiersHeld = 2 ∧ (after (.tierReset 0 0) devG).rst.result = 1 ∧
    (let s : State := { dev with rst := { dev.rst with tiersHeld := 2 } }; (after (.tierResetEnd 1) s).rst.tiersHeld = 0) ∧
    (let s : State := { dev with rst := { dev.rst with powering := true } }; s.rst.tripped = false ∧ (after (.powerDownEnd sample 0) s).rst.safeOff = true ∧ (after (.fullReset 0) s).rst.result = 2) := by decide
def boot (stage released : Nat) : State := { State.reset with clk := 20480, rst := { stage := stage, released := released }, dpt := { up := stage > 1 } }
def bin : BootIn := { code := 0, depOk := true, otherOk := true, crewOk := true, calOk := true }
theorem test_release_met :
    State.reset.bootDue = false ∧ (∀ e ∈ [(0, 1), (1, 3), (2, 3), (3, 3), (4, 7), (5, 7), (6, 15), (7, 31), (8, 63)], (boot e.1 e.2).bootDue = true) ∧
    (∀ e ∈ [(0, 1), (1, 3), (2, 3), (4, 7), (6, 15), (8, 63)], (after (.domainRelease bin) (boot e.1 e.2)).rst.stage = e.1 + 1) ∧
    (after (.domainRelease { bin with code := 224 }) (boot 0 1)).rst.refuge = 2 ∧ (boot 4 7).crewGood = true ∧ (boot 1 3).pickDeputy true true ≠ none ∧ (boot 1 3).pickDeputy false false = none ∧
    (boot 7 31).mem.trained = false ∧ (after .shiftReady (boot 9 127)).rst.shiftReady = true := by decide
def pace : PaceIn := { mw100 := 5, mw10ms := 5, tiers := [100, 98, 99, 97], stack := 50, amps := 0 }
theorem test_power_met :
    dev.rel 1 = true ∧ dev.pwr.env = 0 ∧ (after (.pacingUpdate pace) dev).pwr.thermal = [1, 0, 0, 0] ∧ (after (.thermalTrip 95) dev).rst.tripped = true ∧
    dev.pwr.avsTarget.length = 4 ∧ dev.pwr.setp.length = 4 ∧ dev.pwr.avsTries.length = 4 ∧ 2 ≤ dev.rst.stage ∧ bit dev.pwr.avsFail 0 = false ∧
    (after (.avsWriteTimeout 0 false) dev).pwr.avsTries = [1, 0, 0, 0] ∧ bit (after (.avsWriteTimeout 0 true) dev).pwr.avsFail 0 = true ∧
    (let s : State := { dev with pwr := { avsFail := 1 } }; bit (after (.avsRetry 0 true) s).pwr.avsFail 0 = false) := by decide
/-- The invariants' premises hold of a running device, and an idle step leads on. -/
theorem test_invariants_met : dev.memOk = true ∧ dev.rst.legal = true ∧ State.reset.memOk = true ∧ step dev = .next dev.tick ∧
    step { dev with pending := [.extest] } = exec .extest dev := ⟨by decide, by decide, by decide, rfl, rfl⟩

/-! Well-formedness: an ill-formed command for each check, which the check refuses, beside a well-formed one. -/

theorem test_wf_gang : Instr.wf (.iadd 36864 0 0) = false ∧ Instr.wf (.iadd 36863 0 0) = true ∧ Instr.wf (.kernelTrap 36864) = false := by decide
theorem test_wf_core : Instr.wf (.barrierDeadlock 576) = false ∧ Instr.wf (.barrierDeadlock 575) = true ∧ Instr.wf (.mmaRunComplete 0 16) = false := by decide
theorem test_wf_function : Instr.wf (.halt 34) = false ∧ Instr.wf (.halt 33) = true := by decide
theorem test_wf_lane : Instr.wf (.stepPath 0 32 0 0) = false ∧ Instr.wf (.dbgLanePcWrite 0 32 0) = false ∧ Instr.wf (.stepPath 0 31 0 0) = true := by decide
theorem test_wf_partition : Instr.wf (.energyRecordSign 16) = false ∧ Instr.wf (.energyRecordSign 15) = true := by decide
theorem test_wf_level : Instr.wf (.guilty 0 8) = false ∧ Instr.wf (.guilty 0 7) = true := by decide
theorem test_wf_host_port : Instr.wf (.perst 2) = false ∧ Instr.wf (.perst 1) = true ∧ Instr.wf (.portReady 0 5 3 true) = false := by decide
theorem test_wf_fabric_port : Instr.wf (.trainTimeout 32) = false ∧ Instr.wf (.trainTimeout 31) = true ∧ Instr.wf (.trainComplete 0 256) = false := by decide
theorem test_wf_tier : Instr.wf (.dieFatal 4) = false ∧ Instr.wf (.dieFatal 3) = true := by decide
theorem test_wf_offset : Instr.wf (.readClear 0 67108864 4) = false ∧ Instr.wf (.readClear 0 67108860 4) = true := by decide
theorem test_wf_size : Instr.wf (.readClear 0 0 3) = false := by decide
theorem test_wf_words : Instr.wf (.devPartSel 0 (2 ^ 32)) = false ∧ Instr.wf (.timSet 0 (2 ^ 64)) = false ∧ Instr.wf (.timSet 0 (2 ^ 64 - 1)) = true ∧
    Instr.wf (.cmdSumpHead 0 (2 ^ 32)) = false ∧ Instr.wf (.cmdDoorbell 0 0 0 (2 ^ 32)) = false := by decide
theorem test_wf_agent : Instr.wf (.agentTimeout 89 0) = false ∧ Instr.wf (.agentTimeout 88 (2 ^ 33)) = false ∧ Instr.wf (.agentTimeout 88 (2 ^ 33 - 1)) = true := by decide
theorem test_wf_slots : Instr.wf (.launch 0 0 (List.replicate 63 0)) = false ∧ Instr.wf (.launch 0 0 []) = false ∧ Instr.wf (.launch 0 0 (List.replicate 128 0)) = true := by decide
theorem test_wf_flip : Flip.ok { line := 0, cw := 8, sym := 0, err := 0 } = false ∧ Flip.ok { line := 0, cw := 0, sym := 36, err := 0 } = false ∧
    Flip.ok { line := 0, cw := 0, sym := 0, err := 16 } = false ∧ Instr.wf (.patrolScrub 0 [{ line := 0, cw := 8, sym := 0, err := 0 }]) = false ∧
    Instr.wf (.ld 0 0 0 [{ line := 0, cw := 8, sym := 0, err := 0 }]) = false := by decide
theorem test_wf_poller : Instr.wf (.semaphorePoll (.gang 36864)) = false ∧ Instr.wf (.semaphorePoll (.cmd 16 0)) = false ∧ Instr.wf (.semaphorePoll (.cmd 15 9)) = true := by decide
theorem test_wf_group : (∀ k ∈ [GroupId.ring 16 0, .ring 0 8, .sump 16, .fault 16, .energy 16, .seam 0 256, .adit 0 256], Instr.wf (.commitSwap k) = false) ∧
    Instr.wf (.commitSwap (.seam 15 255)) = true ∧ Instr.wf (.commitSwap .cadence) = true := by decide
theorem test_wf_index : Instr.wf (.plcSeamCommit 0 256) = false ∧ Instr.wf (.xltAditCommit 0 256) = false ∧ Instr.wf (.copyRetry 0 64) = false ∧ Instr.wf (.storeDrain 2304 0) = false ∧
    Instr.wf (.shotBegin 256) = false ∧ Instr.wf (.snapshot 256) = false ∧ Instr.wf (.gateOpen 255) = true := by decide
theorem test_wf_adit : AditReq.ok { areq 0 4 with src := 16384 } = false ∧ AditReq.ok { areq 0 4 with window := 256 } = false ∧ Instr.wf (.aditRd (areq 0 4)) = true ∧
    Instr.wf (.aditRsp { tag := 65536, status := 0, len := 0, pmask := 0, data := [] }) = false := by decide
theorem test_wf_memory : Instr.wf (.refresh 1024) = false ∧ Instr.wf (.wcEntryTimeout 256 0) = false ∧ Instr.wf (.phyMarginLoss 512) = false ∧ Instr.wf (.phyMarginLoss 511) = true := by decide
theorem test_wf_proposal : Instr.wf (.crewProposal (.reseam 16 0 [] 0)) = false ∧ Instr.wf (.crewProposal (.addReplica 16 0 [] 0 false)) = false ∧
    Instr.wf (.crewProposal (.dropReplica 16 0 0)) = false ∧ Instr.wf (.crewProposal (.district 0 0 [576])) = false ∧ Instr.wf (.crewProposal (.district 0 0 [575])) = true := by decide
theorem test_wf_flit : Flit.ok { flit0 with type := 256 } = false ∧ Flit.ok { flit0 with dest := 65536 } = false ∧ Flit.ok { flit0 with src := 65536 } = false ∧ Flit.ok flit0 = true := by decide
theorem test_wf_reduction : RedMsg.ok { rmsg 0 0 with job := 4096 } = false ∧ RedMsg.ok { rmsg 65536 0 with stp := 0 } = false ∧ RedMsg.ok { rmsg 0 0 with stp := 2 ^ 32 } = false ∧
    Instr.wf (.redPart (rmsg 0 0)) = true := by decide
theorem test_wf_host_request : HostReq.ok { port := 2, rid := 0, fn := 0, off := 0, relaxed := false } = false ∧ HostReq.ok { port := 0, rid := 65536, fn := 0, off := 0, relaxed := false } = false ∧
    HostReq.ok { port := 0, rid := 0, fn := 16, off := 0, relaxed := false } = false ∧ Instr.wf (.configRequest 0 16 .readVendor) = false := by decide
theorem test_wf_reach : Instr.wf (.reach 16384) = false ∧ Instr.wf (.reach 16383) = true := by decide
theorem test_wf_unlock : Instr.wf (.unlock { challenge := [], mask := 65536, crew := false, key := none, vendorPub := [], sig := [] }) = false := by decide
theorem test_wf_crew : Instr.wf (.crewHeartbeatMiss 8) = false ∧ Instr.wf (.crewHeartbeatMiss 7) = true := by decide
theorem test_wf_samples : Instr.wf (.windowEnd { pj := [], volts := [], temp := [] }) = false ∧ Instr.wf (.windowEnd sample) = true ∧
    Instr.wf (.pacingUpdate { pace with tiers := [] }) = false ∧ Instr.wf (.pacingUpdate pace) = true := by decide
theorem test_wf_boot : Instr.wf (.domainRelease { bin with code := 256 }) = false ∧ Instr.wf (.domainRelease bin) = true := by decide
theorem test_wf_sensor : Instr.wf (.thermalTrip 96) = false ∧ Instr.wf (.thermalTrip 95) = true := by decide

/-! The table gives no row bits, so no word spells a command. -/
theorem test_no_words : decodeTableWord 64 0 = none ∧ decodeTableWord 8 0x15 = none := by decide
theorem test_fetch_word : dev.withFetchWord 64 1 = dev := rfl

end Sys2Proof.Tests
end

/-!
PROOFS. GANG_START (R60, R61, R296): the gang that starts, the state that follows, and O12.
-/

namespace Sys2Proof.Machine

/-! Bits and masks. -/

theorem bit_eq_testBit (v i : Nat) : bit v i = v.testBit i := by
  rw [bit, Nat.testBit_eq_decide_div_mod_eq]
  rfl

/-- A power of two added where its bit is 0 carries into no higher bit. -/
theorem add_two_pow_div_above {a k : Nat} (h : bit a k = false) (d : Nat) :
    (a + 2 ^ k) / 2 ^ (k + 1 + d) = a / 2 ^ (k + 1 + d) := by
  have above (x : Nat) : x / 2 ^ (k + 1 + d) = x / 2 ^ k / 2 / 2 ^ d := by
    rw [Nat.div_div_eq_div_mul x, ← Nat.pow_succ, Nat.div_div_eq_div_mul, ← Nat.pow_add]
  have even : a / 2 ^ k % 2 ≠ 1 := by simpa only [bit, beq_eq_false_iff_ne] using h
  have carry : (a + 2 ^ k) / 2 ^ k / 2 = a / 2 ^ k / 2 := by
    rw [Nat.add_div_right a (Nat.two_pow_pos k)]
    omega
  rw [above, carry, above]

/-- A power of two added where its bit is 0 sets that bit and leaves every other. -/
theorem bit_add_two_pow {a k : Nat} (h : bit a k = false) (i : Nat) :
    bit (a + 2 ^ k) i = (decide (i = k) || bit a i) := by
  rcases Nat.lt_trichotomy i k with hlt | rfl | hgt
  · rw [decide_eq_false (Nat.ne_of_lt hlt), Bool.false_or, bit_eq_testBit, bit_eq_testBit, Nat.add_comm,
      Nat.testBit_two_pow_add_gt hlt]
  · rw [decide_eq_true rfl, Bool.true_or, bit_eq_testBit, Nat.add_comm, Nat.testBit_two_pow_add_eq, ← bit_eq_testBit, h]
    rfl
  · obtain ⟨d, rfl⟩ := Nat.exists_eq_add_of_le (Nat.succ_le_of_lt hgt)
    rw [decide_eq_false (Nat.ne_of_gt hgt), Bool.false_or, bit, bit, add_two_pow_div_above h]

/-- One step of maskOf. -/
def withBit (a k : Nat) : Nat := if bit a k then a else a + 2 ^ k

theorem maskOf_eq_foldl (l : List Nat) : maskOf l = l.foldl withBit 0 := rfl

theorem bit_withBit (a k i : Nat) : bit (withBit a k) i = (decide (i = k) || bit a i) := by
  by_cases hset : bit a k = true
  · rw [withBit, if_pos hset]
    by_cases hik : i = k
    · rw [hik, hset, Bool.or_true]
    · rw [decide_eq_false hik, Bool.false_or]
  · rw [withBit, if_neg hset, bit_add_two_pow (Bool.eq_false_iff.mpr hset)]

theorem bit_foldl_withBit (l : List Nat) (a i : Nat) : bit (l.foldl withBit a) i = (decide (i ∈ l) || bit a i) := by
  induction l generalizing a with
  | nil => rw [List.foldl_nil, decide_eq_false List.not_mem_nil, Bool.false_or]
  | cons k l ih =>
    rw [List.foldl_cons, ih, bit_withBit, ← Bool.or_assoc, Bool.or_comm (decide (i ∈ l)), ← Bool.decide_or]
    simp only [List.mem_cons]

/-- A mask has the bits of its list and no others. -/
theorem bit_maskOf (l : List Nat) (i : Nat) : bit (maskOf l) i = decide (i ∈ l) := by
  have zero : bit 0 i = false := by rw [bit_eq_testBit, Nat.zero_testBit]
  rw [maskOf_eq_foldl, bit_foldl_withBit, zero, Bool.or_false]

@[simp] theorem Tab.get_nil {α : Type} (d : α) (i : Nat) : Tab.get d [] i = d := rfl

/-- A table given the numbers below n, one after the other, reads what each was given, and above them what it read before. -/
theorem Tab.get_foldl_range_set {α : Type} [DecidableEq α] (d : α) (f : Nat → α) (t : Tab α) (n i : Nat) :
    Tab.get d ((List.range n).foldl (fun t j => Tab.set d t j (f j)) t) i = if i < n then f i else Tab.get d t i := by
  induction n with
  | zero => simp
  | succ n ih =>
    rw [List.range_succ, List.foldl_append, List.foldl_cons, List.foldl_nil, Tab.get_set, ih]
    by_cases hin : i = n
    · simp [hin]
    · have hlt : i < n + 1 ↔ i < n := by omega
      simp [hin, hlt]

/-! The gang as it starts (R61, R296). -/

section
variable (kn : Kernel) (b args : List Byte) (i : Nat)

theorem newGang_lane {l : Nat} (hl : l < 32) :
    (newGang kn b args i).lane l = { pc := u64 b 24, rng := rngSeed (u32 b 40) (32 * i + l) } := by
  simp [newGang, Gang.lane, Tab.get_foldl_range_set, hl]

theorem bit_newGang_exited {l : Nat} (hl : l < 32) :
    bit (newGang kn b args i).exited l = decide (u32 b 20 ≤ 32 * i + l) := by
  simp [newGang, bit_maskOf, hl]

theorem get_newGang_mdesc (j : Nat) :
    Tab.get 0 (newGang kn b args i).mdesc j = if j < u8 b 47 then BitVec.ofNat 64 (u64 args (256 + 8 * j)) else 0 := by
  simp [newGang, Tab.get_foldl_range_set]

theorem get_newGang_uregs_threadReg (h : u8 b 56 ≠ 0xFF) :
    Tab.get 0 (newGang kn b args i).uregs (u8 b 56) = BitVec.ofNat 32 (32 * i) := by
  simp [newGang, h]

theorem get_newGang_uregs_of_ne {j : Nat} (h : j ≠ u8 b 56) :
    Tab.get 0 (newGang kn b args i).uregs j = if j < u8 b 46 then BitVec.ofNat 32 (u32 args (4 * j)) else 0 := by
  have loaded := Tab.get_foldl_range_set 0 (fun j => BitVec.ofNat 32 (u32 args (4 * j))) [] (u8 b 46) j
  by_cases hnone : u8 b 56 = 0xFF
  · simpa [newGang, hnone] using loaded
  · simpa [newGang, hnone, Tab.get_set_other _ _ _ h] using loaded

end

/-! The state after the start. -/

/-- Core y runs command k's kernel: as it was where it runs it already, and else new but for its count of retired instructions. -/
def State.takeCore (s : State) (y p k : Nat) : State :=
  if (s.core y).kern = some (p, k) then s else s.updCore y fun x => { kern := some (p, k), retired := x.retired }

section
variable (s : State) (y p k : Nat)

theorem State.core_takeCore_kern : ((s.takeCore y p k).core y).kern = some (p, k) := by
  unfold State.takeCore
  split
  · assumption
  · simp

@[simp] theorem State.gang_takeCore (g : Nat) : (s.takeCore y p k).gang g = s.gang g := by
  unfold State.takeCore
  split <;> simp

@[simp] theorem State.cmd_takeCore (q n : Nat) : (s.takeCore y p k).cmd q n = s.cmd q n := by
  unfold State.takeCore
  split <;> simp

@[simp] theorem State.takeCore_mem : (s.takeCore y p k).mem = s.mem := by
  unfold State.takeCore
  split <;> simp

end

/-- The next gang of command k starts in slot g. -/
def State.startGang (s : State) (p k g : Nat) : State :=
  let c := s.cmd p k
  ((s.takeCore (coreOf g) p k).updGang g fun _ => newGang c.kern c.bytes c.args c.startedGangs).updCmd p k
    fun c => { c with startedGangs := c.startedGangs + 1, liveGangs := c.liveGangs + 1 }

section
variable (s : State) (p k g : Nat)

@[simp] theorem State.gang_startGang_same :
    (s.startGang p k g).gang g = newGang (s.cmd p k).kern (s.cmd p k).bytes (s.cmd p k).args (s.cmd p k).startedGangs := by
  simp [State.startGang]

theorem State.gang_startGang_other {h : Nat} (hne : h ≠ g) : (s.startGang p k g).gang h = s.gang h := by
  simp [State.startGang, State.gang_updGang, hne]

@[simp] theorem State.cmd_startGang_same : (s.startGang p k g).cmd p k =
    { s.cmd p k with startedGangs := (s.cmd p k).startedGangs + 1, liveGangs := (s.cmd p k).liveGangs + 1 } := by
  simp [State.startGang]

@[simp] theorem State.core_startGang_kern : ((s.startGang p k g).core (coreOf g)).kern = some (p, k) := by
  simp [State.startGang, State.core_takeCore_kern]

@[simp] theorem State.startGang_mem : (s.startGang p k g).mem = s.mem := by
  simp [State.startGang]

end

/-- What lets the next gang of command k start in slot g, taken together. -/
theorem State.gangFits_of {s : State} {p k g : Nat} (hwait : (s.cmd p k).wait = .gangs)
    (hleft : (s.cmd p k).startedGangs < (s.cmd p k).gangs) (hissue : s.issueOn g = true)
    (hcore : (s.launchCores p k).contains (coreOf g) = true) (hfree : (s.gang g).live = false)
    (hroom : s.regRoom (subOf g) (s.cmd p k).kern.vregs = true) (htakes : s.coreTakes (coreOf g) p k = true) :
    s.gangFits p k g = true := by
  rw [State.gangFits, hwait, hissue, hcore, hfree, hroom, htakes, decide_eq_true hleft]
  rfl

/-- GANG_START where a gang fits and the front end serves the command's level. -/
theorem exec_gangStart_of_fits {p k g : Nat} {s : State} (hon : s.frontOn = true) (hfit : s.gangFits p k g = true)
    (hlevel : s.levelBusy p (s.cmd p k).ring = false) : exec (.gangStart p k g) s = .next (s.startGang p k g) := by
  change execGangStart p k g s = _
  simp [execGangStart, hon, hfit, hlevel, State.startGang, State.takeCore]

/-- Settles O12: a gang that fits starts as newGang gives it, and a start touches its slot, its core and its command. -/
theorem gangStartStarts : Obligations.GangStartStarts := by
  unfold Obligations.GangStartStarts
  intro p k g s c hwait hleft hon hissue hlevel hcore hfree hroom htakes
  have hfit : s.gangFits p k g = true := State.gangFits_of hwait hleft hissue hcore hfree hroom htakes
  refine ⟨s.startGang p k g, exec_gangStart_of_fits hon hfit hlevel, ?_⟩
  intro x i
  have hx : x = newGang c.kern c.bytes c.args i := s.gang_startGang_same p k g
  rw [hx]
  refine ⟨rfl, rfl, rfl, rfl, rfl, rfl, rfl, rfl, ?lanes, ?exited, ?loaded, ?thread, ?zero, ?descriptors, ?zeroDescriptors,
    by simp [i, c], by simp [c], by simp, by simp, fun _ hne => s.gang_startGang_other p k g hne⟩
  case lanes => intro l hl; simp [newGang_lane _ _ _ _ hl]
  case exited => intro l hl; exact bit_newGang_exited _ _ _ _ hl
  case loaded => intro j hj hne; rw [get_newGang_uregs_of_ne _ _ _ _ hne, if_pos hj]
  case thread => exact get_newGang_uregs_threadReg _ _ _ _
  case zero => intro j hj hne; rw [get_newGang_uregs_of_ne _ _ _ _ hne, if_neg (by omega)]
  case descriptors => intro j hj; rw [get_newGang_mdesc, if_pos hj]
  case zeroDescriptors => intro j hj; rw [get_newGang_mdesc, if_neg (by omega)]

end Sys2Proof.Machine

/-!
PROOFS. The issue of a register row (R97, R107 to R109, R518), and O2.
-/

namespace Sys2Proof.Machine

/-! One issue. -/

/-- An issue under a meaning: the issue's bookkeeping on what the meaning comes to in the state that the fetch leaves. -/
theorem issue_of_issues {op g : Nat} {w x : DWord} {s u : State} {path : Nat} (h : Issues op g w x s u path)
    (sem : Ctx → State → Issue) :
    issue sem op g w x s =
      finish (u.ctx g (withOp op w) x.toNat path) (s.readyLanes g) u (sem (u.ctx g (withOp op w) x.toNat path) u) := by
  obtain ⟨y, hfetch, hext⟩ := h.fetch
  have hwords : (!bit (withOp op w) 63 || decide (y = x.toNat)) = true := by
    cases hbit : bit (withOp op w) 63 with
    | false => rfl
    | true => simp [hext hbit]
  rw [issue, issueRaw, if_pos h.first, issueTurn, if_pos h.alive, h.turn]
  simp [issuePath, hfetch, hwords]

/-- A register row whose operands pass the checks of R107 and R108 writes its results and does nothing else. -/
theorem aluSem_of_check {sp : RSpec} {c : Ctx} (h : c.check (c.rBad sp c.wide) (c.srcs sp c.wide) [c.dstR sp] = none)
    (f : Nat → Nat → Nat → Nat → Nat) (s : State) :
    aluSem sp f c s = .ok (s.updGang c.g fun y => y.setDst c.lanes (c.dstR sp) fun l =>
      f (32 * c.wide) ((c.srcA sp.a c.wide).val c l) ((c.srcB sp.b c.wide).val c l) ((c.srcC sp.c c.wide).val c l)) [] false := by
  rw [Ctx.dstR] at h ⊢
  rw [aluSem, h]
  rfl

/-! The results of R109 and R518 as exact results modulo the width. -/

theorem twos_zero (n : Nat) : twos n 0 = 0 := by
  rw [twos, Int.zero_emod, Int.toNat_zero]

/-- −1 is all ones. -/
theorem twos_neg_one (n : Nat) : twos n (-1) = 2 ^ n - 1 := by
  have hpos : 0 < 2 ^ n := Nat.two_pow_pos n
  have hmod : (-1 : Int) % ((2 ^ n : Nat) : Int) = ((2 ^ n - 1 : Nat) : Int) := by
    rw [← Int.add_emod_right, Int.emod_eq_of_lt (by omega) (by omega)]
    omega
  rw [twos, hmod, Int.toNat_natCast]

/-- The signed value of n bits, divided by 2^n and rounded down, is the sign. -/
theorem sgn_ediv_two_pow (n v : Nat) : sgn n v / ((2 ^ n : Nat) : Int) = if sgn n v < 0 then -1 else 0 := by
  have hlt : v % 2 ^ n < 2 ^ n := Nat.mod_lt _ (Nat.two_pow_pos n)
  have hbounds : -((2 ^ n : Nat) : Int) ≤ sgn n v ∧ sgn n v < ((2 ^ n : Nat) : Int) := by
    rw [sgn]
    split <;> omega
  obtain ⟨hlow, hhigh⟩ := hbounds
  by_cases hneg : sgn n v < 0
  · rw [if_pos hneg, Int.ediv_eq_neg_one_of_neg_of_le hneg (by omega)]
  · rw [if_neg hneg, Int.ediv_eq_zero_of_lt (by omega) hhigh]

theorem isub_eq_twos (n a b : Nat) : isub n a b = twos n ((a : Int) - (b : Int)) := by
  have hlt : b % 2 ^ n < 2 ^ n := Nat.mod_lt _ (Nat.two_pow_pos n)
  have hmod : ((isub n a b : Nat) : Int) = ((a : Int) - (b : Int)) % ((2 ^ n : Nat) : Int) := by
    rw [isub, modSub, Int.natCast_emod, Int.natCast_add, Int.natCast_sub (Nat.le_of_lt hlt), Int.natCast_emod,
      Int.natCast_emod, Int.emod_add_emod, ← Int.add_sub_assoc, Int.sub_emod_emod, Int.sub_eq_add_neg,
      Int.add_right_comm, Int.add_emod_right, ← Int.sub_eq_add_neg]
  rw [twos, ← hmod, Int.toNat_natCast]

theorem ineg_eq_twos (n a : Nat) : ineg n a = twos n (-(a : Int)) := by
  rw [ineg, isub_eq_twos, Int.natCast_zero, Int.zero_sub]

theorem iabs_eq_twos (n a : Nat) : iabs n a = twos n (if sgn n a < 0 then -sgn n a else sgn n a) := by
  have habs : ((sgn n a).natAbs : Int) = if sgn n a < 0 then -sgn n a else sgn n a := by
    split <;> omega
  rw [iabs, habs]

theorem idivS_eq_twos (n a b : Nat) :
    idivS n a b = if b = 0 then twos n (-1) else twos n ((sgn n a).tdiv (sgn n b)) := by
  rw [idivS, twos_neg_one]

/-- An arithmetic right shift by the width or more leaves the sign in every bit. -/
theorem isar_eq_shift (n a c : Nat) :
    isar n a c = if c ≥ n then (if sgn n a < 0 then 2 ^ n - 1 else 0) else twos n (sgn n a / (2 ^ c : Nat)) := by
  by_cases hc : c ≥ n
  · rw [if_pos hc, isar, Nat.min_eq_right hc, sgn_ediv_two_pow, apply_ite (twos n), twos_neg_one, twos_zero]
  · rw [if_neg hc, isar, Nat.min_eq_left (by omega)]

theorem popc_eq_testBits (n a : Nat) : popc n a = ((List.range n).filter a.testBit).length := by
  rw [popc, setBits, funext (bit_eq_testBit a)]

theorem brev_eq_foldl (n a : Nat) : brev n a = (List.range n).foldl (fun v i => v * 2 + a / 2 ^ i % 2) 0 := by
  have hbit : ∀ i, bits a i i = a / 2 ^ i % 2 := fun i => by rw [bits, Nat.add_sub_cancel_left, Nat.pow_one]
  simp only [brev, hbit]

/-! The rows. -/

/-- A register row completes where its meaning computes the row's results. -/
theorem aluRow_completes_of_exec {r : AluRow}
    (hexec : ∀ g w x s, exec (r.row g w x) s = .next (issue (fun c => aluSem r.sp (r.f c) c) r.op g w x s)) : r.completes := by
  intro g w x s u path hissues c hok
  rw [hexec, issue_of_issues hissues, aluSem_of_check hok]
  rfl

/-- A register row whose meaning computes `f` completes where each of `f`'s results is the row's. -/
theorem aluRow_completes_of_result {r : AluRow} (f : Nat → Nat → Nat → Nat → Nat)
    (hexec : ∀ g w x s, exec (r.row g w x) s = .next (issue (aluSem r.sp f) r.op g w x s))
    (hresult : ∀ c n a b d, f n a b d = r.f c n a b d) : r.completes := by
  have hf : ∀ c, r.f c = f := fun c => by
    funext n a b d
    exact (hresult c n a b d).symm
  exact aluRow_completes_of_exec fun g w x s => by simp only [hexec, hf]

/-- Settles O2: a row whose meaning is written as R109 and R518 have its result completes as it stands, and each other one by the
equation of its result. -/
theorem integerRowsComplete : Obligations.IntegerRowsComplete := by
  unfold Obligations.IntegerRowsComplete
  simp only [integerRows, List.forall_mem_cons]
  refine ⟨?iadd, ?isub, ?imul, ?imulhiU, ?imulhiS, ?imad, ?idivU, ?idivS, ?iremU, ?iremS, ?iminU, ?iminS, ?imaxU, ?imaxS, ?iabs,
    ?ineg, ?and, ?or, ?xor, ?not, ?shl, ?shr, ?sar, ?popc, ?clz, ?brev, ?mov, List.forall_mem_nil _⟩
  case iadd | imul | imulhiU | imulhiS | imad | idivU | iremU | iremS | iminS | imaxS | and | or | xor | not | shl | shr | clz | mov =>
    exact aluRow_completes_of_exec fun _ _ _ _ => rfl
  case isub => exact aluRow_completes_of_result (fun n a b _ => isub n a b) (fun _ _ _ _ => rfl) fun _ n a b _ => isub_eq_twos n a b
  case idivS => exact aluRow_completes_of_result (fun n a b _ => idivS n a b) (fun _ _ _ _ => rfl) fun _ n a b _ => idivS_eq_twos n a b
  case iminU => exact aluRow_completes_of_result (fun _ a b _ => min a b) (fun _ _ _ _ => rfl) fun _ _ a b _ => Nat.min_def
  case imaxU => exact aluRow_completes_of_result (fun _ a b _ => max a b) (fun _ _ _ _ => rfl) fun _ _ a b _ => Nat.max_def
  case iabs => exact aluRow_completes_of_result (fun n a _ _ => iabs n a) (fun _ _ _ _ => rfl) fun _ n a _ _ => iabs_eq_twos n a
  case ineg => exact aluRow_completes_of_result (fun n a _ _ => ineg n a) (fun _ _ _ _ => rfl) fun _ n a _ _ => ineg_eq_twos n a
  case sar => exact aluRow_completes_of_result (fun n a b _ => isar n a b) (fun _ _ _ _ => rfl) fun _ n a b _ => isar_eq_shift n a b
  case popc => exact aluRow_completes_of_result (fun n a _ _ => popc n a) (fun _ _ _ _ => rfl) fun _ n a _ _ => popc_eq_testBits n a
  case brev => exact aluRow_completes_of_result (fun n a _ _ => brev n a) (fun _ _ _ _ => rfl) fun _ n a _ _ => brev_eq_foldl n a

end Sys2Proof.Machine

/-!
PROOFS. ATOM (R115 to R117), and O8.
-/

namespace Sys2Proof.Machine

/-! The traps of an issue. -/

/-- A row traps where its meaning does. -/
theorem traps_of_exec {row : Nat → DWord → DWord → Instr} {op code : Nat} {ok : Ctx → State → Prop} {extra : Ctx → List Byte}
    (sem : Ctx → State → Issue) (hexec : ∀ g w x s, exec (row g w x) s = .next (issue sem op g w x s))
    (htrap : ∀ c s, ok c s → sem c s = .trap code (extra c)) : Traps row op ok code extra := by
  intro g w x s u path hissues c hok
  rw [hexec, issue_of_issues hissues, htrap _ _ hok]
  rfl

/-- A field fault comes before every other check (R108). -/
theorem Ctx.check_of_fieldBad (c : Ctx) (srcs dsts : List Opd) : c.check true srcs dsts = some c.illegal := by
  rw [Ctx.check, Bool.or_true, Bool.true_or]
  rfl

/-! One lane of an atomic. -/

/-- What a lane of an atomic comes to once its element has been read in state s: a poisoned element stays as it is and marks the lane's
register, and another is written, which gives state t (R117). -/
def atomAnswer (l va : Nat) (loc : Loc) (old : Nat) (poisoned : Bool) (s t : State) : LaneLoad × State :=
  let r : LaneLoad := { lane := l, addr := va, loc := loc, ready := true, data := old, poison := if poisoned then some va else none }
  (r, if poisoned then s else t)

/-- The lane's load and the state after it, where a lane has its answer at once. -/
theorem exists_of_atomAnswer {o : Option (LaneLoad × State)} {l va old : Nat} {loc : Loc} {poisoned : Bool} {s t : State}
    (h : o = some (atomAnswer l va loc old poisoned s t)) :
    ∃ r u, o = some (r, u) ∧ r.data = old ∧ r.ready = true ∧ (poisoned = true → u = s ∧ r.poison = some va) ∧
      (poisoned = false → r.poison = none ∧ u = t) := by
  refine ⟨_, _, h, rfl, rfl, ?poisoned, ?written⟩
  case poisoned => rintro rfl; exact ⟨rfl, rfl⟩
  case written => rintro rfl; exact ⟨rfl, rfl⟩

section
variable {s : State} {c : Ctx} {l a : Nat}

theorem State.atomLane_ws (id va co : Nat)
    (hfree : ((s.stores c.g l).any fun y => y.loc.overlaps y.size (.ws co a) c.size) = false) :
    s.atomLane c id (l, va, .ws co a) =
      let old := leVal (s.wsRead co a c.size)
      some (atomAnswer l va (.ws co a) old (s.wsPoison co a c.size) s (s.wsWrite co a
        (leBytes c.size (aop (c.f 26 23) (8 * c.size) old ((c.xOpd 22 15).val c l) ((c.xOpd 14 7).val c l))))) := by
  cases hpoison : s.wsPoison co a c.size <;> simp [State.atomLane, atomAnswer, hfree, hpoison]

theorem State.atomLane_l2s (id va p : Nat)
    (hfree : ((s.stores c.g l).any fun y => y.loc.overlaps y.size (.l2s p a) c.size) = false) :
    s.atomLane c id (l, va, .l2s p a) =
      let t := s.scratchMeet p a c.size
      let old := leVal (t.l2sRead p a c.size)
      let t := t.charge c.x.k.part c.x.k.tally 6 1
      some (atomAnswer l va (.l2s p a) old (t.l2sPoison p a c.size) t (t.l2sWrite p a
        (leBytes c.size (aop (c.f 26 23) (8 * c.size) old ((c.xOpd 22 15).val c l) ((c.xOpd 14 7).val c l))))) := by
  cases hpoison : ((s.scratchMeet p a c.size).charge c.x.k.part c.x.k.tally 6 1).l2sPoison p a c.size <;>
    simp [State.atomLane, atomAnswer, hfree, hpoison]

theorem State.atomLane_dev_of_held (id va : Nat) (hheld : s.lineHeld a = true) : s.atomLane c id (l, va, .dev a) = none := by
  simp [State.atomLane, hheld]

theorem State.atomLane_dev (id va : Nat)
    (hfree : ((s.stores c.g l).any fun y => y.loc.overlaps y.size (.dev a) c.size) = false) (hheld : s.lineHeld a = false) :
    s.atomLane c id (l, va, .dev a) =
      let q := s.req c.x.k.part c.x.k.tally 0
      let t := ((s.l1Drop (coreOf c.g) a).homeRead q a).cacheLeaf (tlbCore (coreOf c.g)) c.x.k.part c.x.k.slot va
      let old := leVal (t.devRead a c.size)
      some (atomAnswer l va (.dev a) old (t.poisonAt a) t (t.homeWrite q a
        (leBytes c.size (aop (c.f 26 23) (8 * c.size) old ((c.xOpd 22 15).val c l) ((c.xOpd 14 7).val c l))))) := by
  cases hpoison : (((s.l1Drop (coreOf c.g) a).homeRead (s.req c.x.k.part c.x.k.tally 0) a).cacheLeaf (tlbCore (coreOf c.g))
      c.x.k.part c.x.k.slot va).poisonAt a <;>
    simp [State.atomLane, atomAnswer, hfree, hheld, hpoison]

end

/-! The instruction. -/

/-- ATOM whose lanes all have their turn (R115, R116): their loads wait together for their return. -/
theorem semAtom_of_lanes {c : Ctx} {s u : State} {ts : List (Nat × Nat × Loc)} {ls : List LaneLoad}
    (hcheck : c.check c.atomBad c.atomSrcs [{ kind := 0, idx := c.f 49 42, n := if c.f 29 27 = 3 then 2 else 1 }] = none)
    (hheld : c.heldUp = false) (htargets : s.targets c .both true 0 = .ok ts) (hsome : ts ≠ [])
    (hlanes : State.atomLanes c s.uid ts { s with uid := s.uid + 1 } = some (ls, u)) :
    semAtom c s = .ok ((u.wsWords c ts).semCheck.addLoad c (loadOf .atom s.uid c.size false false c u ls)) [] false := by
  have hempty : ts.isEmpty = false := List.isEmpty_eq_false_iff.mpr hsome
  simp [semAtom, hcheck, hheld, htargets, hempty, hlanes, loadOf]

/-- The sizes and operations that ATOM has not (R105, R117). -/
theorem Ctx.atomBad_of_sizeOrOp {c : Ctx}
    (h : c.f 29 27 ≠ 2 ∧ c.f 29 27 ≠ 3 ∨ 10 < c.f 26 23 ∨ c.f 26 23 = 10 ∧ c.f 29 27 = 3) : c.atomBad = true := by
  rcases h with ⟨htwo, hthree⟩ | hop | ⟨hop, hsize⟩
  · simp [Ctx.atomBad, htwo, hthree]
  · simp [Ctx.atomBad, hop]
  · simp [Ctx.atomBad, hop, hsize]

theorem semAtom_of_bad {c : Ctx} (h : c.atomBad = true) (s : State) : semAtom c s = c.illegal := by
  rw [semAtom, h, Ctx.check_of_fieldBad]

theorem exec_atom (g : Nat) (w x : DWord) (s : State) : exec (.atom g w x) s = .next (issue semAtom 0x72 g w x s) := rfl

theorem atomCompletes : Claims.AtomCompletes := by
  refine ⟨?lanes, ?workspace, ?scratch, ?device, ?illegal⟩
  case lanes =>
    intro g w x s v path hissues c hcheck ts hheld htargets hsome ls u hlanes
    rw [exec_atom, issue_of_issues hissues, semAtom_of_lanes hcheck hheld htargets hsome hlanes]
  case workspace =>
    intro c s id l va co a n b k old hfree
    obtain ⟨r, u, hlane, hdata, hready, hpoisoned, hwritten⟩ := exists_of_atomAnswer (State.atomLane_ws id va co hfree)
    exact ⟨r, u, hlane, hdata, hready, hpoisoned, fun h => (hwritten h).symm⟩
  case scratch =>
    intro c s id l va p a n t old t hfree
    exact exists_of_atomAnswer (State.atomLane_l2s id va p hfree)
  case device =>
    intro c s id l va a n k q t old hfree
    exact ⟨State.atomLane_dev_of_held id va, fun hheld => exists_of_atomAnswer (State.atomLane_dev id va hfree hheld)⟩
  case illegal =>
    exact traps_of_exec semAtom exec_atom fun c s h => semAtom_of_bad (Ctx.atomBad_of_sizeOrOp h) s

/-- `aop` is written as the table of R117, so each row is its own equation. -/
theorem atomicOperations : Claims.AtomicOperations := by
  intro n a b c _ _ _
  exact ⟨rfl, rfl, rfl, rfl, rfl, rfl, rfl, rfl, rfl, rfl, rfl⟩

/-- Settles O8: a lane that reads its element answers `atomAnswer`, in each of the three spaces, and the operations are R117's. -/
theorem atomicsReadModifyWrite : Obligations.AtomicsReadModifyWrite := ⟨atomCompletes, atomicOperations⟩

end Sys2Proof.Machine
